-- ==== Sys2Proof/Word.lean ====
section
/-!
DEFINITION. The fixed widths of 00_scope.md R12, and nothing else.
A single bit (a line level, a flag) is a Bool: true is 1.
-/

namespace Sys2Proof

/-- A data byte (R12). -/
abbrev Byte := BitVec 8

/-- A command word, and a host register (R12). -/
abbrev Word := BitVec 16

end Sys2Proof
end

