-- ==== Sys2Proof/Config.lean ====
section
/-!
DEFINITION. What an implementation fixes, and the values the spec leaves free.
Every constant here is opaque: it has no body, so no proof can see what it is.
-/

namespace Sys2Proof

/-- `N_RETRY - 1`. A constant of the implementation (R10, U9; log entry 4). -/
opaque Config.retriesAfterFirst : Nat

/-- `N_RETRY`, the sample budget of WAIT_ACK, at least 1 (R10, D14; log entry 4). -/
def Config.nRetry : Nat := Config.retriesAfterFirst + 1

/-- `T_UNIT` in nanoseconds (R9, U9). No rule depends on it. -/
opaque Config.tUnit : Nat

/-- `F_CLK` in hertz (R11, U10). -/
opaque Config.fClk : Nat

/-- `T_UNIT_CYCLES`, controller clock cycles in one `T_UNIT` (R11, U10). -/
opaque Config.tUnitCycles : Nat

/-- `REG_BASE`, where the register block sits in a host's address space (R41, U11). -/
opaque Config.regBase : Nat

/-- FREE VALUE: the PEER's contribution to SDA at draw `n`, where `State.peer` does not give it (R18, U2; log entry 3). -/
opaque Config.peerSda : Nat → Bool

/-- FREE VALUE: which of several held `CMD` writes is accepted, at open choice `n` (R61, U8; log entry 10). -/
opaque Config.heldPick : Nat → Nat

/-- FREE VALUE: whether SCL is seen to rise before SDA when the reset at place `n` of a trace raises both (R106, U3; log entry 13). -/
opaque Config.sclRisesFirst : Nat → Bool

end Sys2Proof
end

