-- ==== Sys2Proof/Syntax.lean ====
section
/-!
DEFINITION. The six commands of the opcode table (30_encoding.md R71), and the assembler lines of R75 and R76.
-/

namespace Sys2Proof

/-- A command: one constructor per row of spec/opcode_table.json. -/
inductive Instr where
  /-- START: a start condition, or a repeated start (R78). -/
  | start
  /-- STOP: a stop condition (R79). -/
  | stop
  /-- SEND_BYTE #B: shift the byte B out, most significant bit first (R81). -/
  | sendByte (b : Byte)
  /-- WAIT_ACK: wait a bounded time for the PEER's acknowledge (R85). -/
  | waitAck
  /-- SEND_ACK #N: drive the acknowledge level N, 0 for ACK and 1 for NACK (R86). -/
  | sendAck (n : Bool)
  /-- READ_BYTE: shift a byte in, most significant bit first (R82). -/
  | readByte
  deriving DecidableEq, Repr

/-- One assembler line (R75), pseudo-instructions among them (R76). An operand is the number as it is written. -/
inductive AsmLine where
  | start
  | stop
  | sendByte (imm : Nat)
  | waitAck
  | sendAck (imm : Nat)
  | readByte
  | ack
  | nack
  | restart
  | addrW (a : Nat)
  | addrR (a : Nat)
  deriving DecidableEq, Repr

end Sys2Proof
end

