-- ==== Sys2Proof/WellFormed.lean ====
section
/-!
DEFINITION. Which terms are well formed.
The operands of a command have exactly the widths of R70 as types (a byte, a bit), so no command is ill formed.
An assembler line has a number as its operand, and R75 and R76 give its range.
-/

namespace Sys2Proof

/-- Every command the types can write is one the encoding can (R70). -/
def Instr.wf : Instr → Bool
  | .start => true
  | .stop => true
  | .sendByte _ => true
  | .waitAck => true
  | .sendAck _ => true
  | .readByte => true

/-- The operand ranges of R75 and R76. -/
def AsmLine.wf : AsmLine → Bool
  | .start => true
  | .stop => true
  | .sendByte imm => decide (imm < 256)
  | .waitAck => true
  | .sendAck imm => decide (imm < 2)
  | .readByte => true
  | .ack => true
  | .nack => true
  | .restart => true
  | .addrW a => decide (a < 128)
  | .addrR a => decide (a < 128)

end Sys2Proof
end

