-- ==== Sys2Proof/Decode.lean ====
section
/-!
DEFINITION. Command words: the fields of R68, the decoder of R72, the encoder of R71.
The controller reads one whole 16-bit word as one command (R69), so the decoder takes a word, not a list of bytes.
-/

namespace Sys2Proof

/-- RES, bits 15:11 (R68). -/
def fieldRes (w : Word) : BitVec 5 := w.extractLsb' 11 5

/-- OP, bits 10:8 (R68). -/
def fieldOp (w : Word) : BitVec 3 := w.extractLsb' 8 3

/-- IMM8, bits 7:0 (R68). -/
def fieldImm (w : Word) : Byte := w.extractLsb' 0 8

/-- The byte operand B of SEND_BYTE, not extended, scaled or shifted (R70). -/
def operandB (w : Word) : Byte := fieldImm w

/-- The level operand N of SEND_ACK, bit 0 (R70). -/
def operandN (w : Word) : Bool := w.getLsbD 0

/-- Why a word is illegal (R73). The reason is the model's name; the hardware sets one and the same flag for all. -/
inductive IllegalWord where
  /-- RES is nonzero. -/
  | reservedBits
  /-- OP is 0b000 or 0b111. -/
  | noSuchOp
  /-- An unused bit of IMM8 is nonzero. -/
  | operandBits
  deriving DecidableEq, Repr

/-- What a word decodes to: a command, or a reason for its being illegal. -/
inductive Decoded where
  | command (i : Instr)
  | illegal (r : IllegalWord)
  deriving DecidableEq, Repr

/-- A command whose eight operand bits must all be 0 (R72). -/
def plainCommand (w : Word) (i : Instr) : Decoded :=
  if fieldImm w = 0 then .command i else .illegal .operandBits

/-- The total decoder, in the order of R72. -/
def decode (w : Word) : Decoded :=
  if fieldRes w ≠ 0 then .illegal .reservedBits
  else match (fieldOp w).toNat with
    | 1 => plainCommand w .start
    | 2 => plainCommand w .stop
    | 3 => .command (.sendByte (operandB w))
    | 4 => plainCommand w .waitAck
    | 5 => if w.extractLsb' 1 7 = 0#7 then .command (.sendAck (operandN w)) else .illegal .operandBits
    | 6 => plainCommand w .readByte
    | _ => .illegal .noSuchOp

/-- The command of a legal word, nothing for an illegal one. -/
def Decoded.toOption : Decoded → Option Instr
  | .command i => some i
  | .illegal _ => none

/-- `illegal(w)` of R60 and R73. -/
def illegalWord (w : Word) : Bool := (decode w).toOption.isNone

/-- The word of a command, from the columns of R71. -/
def encode : Instr → Word
  | .start => 0x0100#16
  | .stop => 0x0200#16
  | .sendByte b => 0x0300#16 ||| b.zeroExtend 16
  | .waitAck => 0x0400#16
  | .sendAck n => 0x0500#16 ||| (BitVec.ofBool n).zeroExtend 16
  | .readByte => 0x0600#16

/-- The match column of R71 for the command's row. -/
def rowMatch : Instr → Word
  | .start => 0x0100#16
  | .stop => 0x0200#16
  | .sendByte _ => 0x0300#16
  | .waitAck => 0x0400#16
  | .sendAck _ => 0x0500#16
  | .readByte => 0x0600#16

/-- The mask column of R71 for the command's row. -/
def rowMask : Instr → Word
  | .start => 0xFFFF#16
  | .stop => 0xFFFF#16
  | .sendByte _ => 0xFF00#16
  | .waitAck => 0xFFFF#16
  | .sendAck _ => 0xFFFE#16
  | .readByte => 0xFFFF#16

/-- The word `w` selects the command's row of the opcode map (R71). -/
def selectsRow (w : Word) (i : Instr) : Bool := decide (w &&& rowMask i = rowMatch i)

/-- The command read from a word of `nbits` bits numbered as the opcode table numbers them.
There is one command length, 16 bits (R69): a number that needs more bits is no command word. -/
def decodeTableWord (nbits w : Nat) : Option Instr :=
  if w % 2 ^ nbits < 65536 then (decode (BitVec.ofNat 16 (w % 2 ^ nbits))).toOption else none

end Sys2Proof
end

