-- ==== Sys2Proof/Machine/State.lean ====
section
/-!
DEFINITION. The state of the controller, as plain data: every row of the table in 10_state.md R39, the RST input, the writes
the port holds, TRACE, and the model's own record of what the outside does. The state after reset.
-/

namespace Sys2Proof.Machine

/-- The two bus lines. -/
inductive Line where
  | scl
  | sda
  deriving DecidableEq, Repr

/-- One event of TRACE (R52). `get s` is `GET(SDA) = s`; there is no event for reading SCL (R48). -/
inductive Event where
  | dirOut
  | dirIn
  | set (l : Line) (v : Bool)
  | get (s : Bool)
  | delay (n : Nat)
  | reset
  deriving DecidableEq, Repr

/-- How far WAIT_ACK's one branch has been taken (R87). Every other command stays on `main`. -/
inductive Path where
  /-- The branch is not taken yet. -/
  | main
  /-- A sample read 0: label ACKED. -/
  | acked
  /-- `N_RETRY` samples read 1: label TIMEOUT, which runs `STOP_SEQ`. -/
  | timedOut
  deriving DecidableEq, Repr

/-- SEQ (R33). In `run c p path`, `p` is the index of the next primitive of command `c` in its list, with loops unrolled and
the branch taken as `path` says. -/
inductive Seq where
  | idle
  | run (c : Instr) (p : Nat) (path : Path)
  deriving DecidableEq, Repr

/-- A `CMD` write that stands at the port: which host agent wrote, and the word (R60, R61). -/
structure PortWrite where
  agent : Nat
  word : Word
  deriving DecidableEq, Repr

/-- What the port answers to a host agent: the data of a read, or that a write is complete (R59, R60). -/
inductive Reply where
  | data (agent idx : Nat) (v : Word)
  | done (agent : Nat)
  deriving DecidableEq, Repr

/-- What the outside can do to the controller, apart from the PEER's draws. `size` is the width of an access in bytes. -/
inductive Input where
  /-- The RST input takes a level (R104). -/
  | rst (level : Bool)
  /-- `MemRead(idx, size)` (R59). -/
  | read (agent idx size : Nat)
  /-- `MemWrite(idx, size, w)` (R60). -/
  | write (agent idx size : Nat) (w : Word)
  deriving DecidableEq, Repr

/-- An input and the time it comes. `some n`: once the events in TRACE and the accepted words together number `n`, so between
any two steps of the CONTROLLER, the acceptance of a word among them (log entries 2 and 23).
`none`: once the controller is idle with no write held, as for a host that waits for its write to complete. -/
structure Arrival where
  time : Option Nat
  input : Input
  deriving DecidableEq, Repr

/-- The state. -/
@[ext]
structure State where
  /-- `SCL_O` (R21). -/
  sclO : Bool
  /-- `SDA_O` (R22). -/
  sdaO : Bool
  /-- `SDA_OE` (R23). -/
  sdaOe : Bool
  /-- `STATUS.BUSY` (R27). -/
  busy : Bool
  /-- `STATUS.NACK` (R28). -/
  nack : Bool
  /-- `STATUS.ILLEGAL` (R29). -/
  illegal : Bool
  /-- `RXBYTE` (R31). -/
  rxbyte : Byte
  /-- `CMDW`, the latched command word (R25). -/
  cmdw : Word
  /-- `SEQ` (R33). -/
  seq : Seq
  /-- `SR` (R34). -/
  sr : Byte
  /-- `BITCNT` (R35). -/
  bitcnt : BitVec 4
  /-- `RETRY` (R35). -/
  retry : Nat
  /-- `DTIMER` (R36). It has run down to 0 whenever a step is over. -/
  dtimer : Nat
  /-- `RST` (R104): the reset input is asserted. -/
  rst : Bool
  /-- The `CMD` writes the port holds (R60, R61). -/
  held : List PortWrite
  /-- TRACE (R37, R52), oldest event first. -/
  trace : List Event
  /-- The model's own: the agent whose `CMD` write is being served (log entry 12). -/
  owner : Nat
  /-- The model's own: the port's answers so far, oldest first (log entry 12). -/
  replies : List Reply
  /-- The model's own: what the outside does next, in order (log entry 2). -/
  agenda : List Arrival
  /-- The model's own: the PEER's next draws, as far as they are given (R18; log entry 3). -/
  peer : List Bool
  /-- The model's own: how many draws were taken, the argument of `Config.peerSda` (log entry 3). -/
  draws : Nat
  /-- The model's own: how many open orders were settled, the argument of `Config.heldPick` (log entry 10). -/
  picks : Nat
  /-- The model's own: how many words were accepted, legal or not; with the events in TRACE, the time of an arrival (log entry 23). -/
  accepted : Nat
  deriving DecidableEq, Repr

/-- The model's faults (R91). None is a behaviour of the hardware. -/
inductive Fault where
  /-- `ModelFault(ReadWhileOutput)`: raised by `Get(SDA)` with `SDA_OE = 1` (R47, U1). Safe: the spec gives that state no
  meaning, and no command reaches it (R24). -/
  | readWhileOutput
  deriving DecidableEq, Repr

/-- What the model refuses (R91). -/
inductive Refusal where
  /-- Raised by an arm of `exec` whose instruction has no meaning yet. Safe. No arm is left so. -/
  | notModelled (mnemonic : String)
  /-- Raised by the port for an access that is not a whole 16-bit access to an index from 0 to 3 (R57, U14). Safe. -/
  | badAccess
  /-- Raised by the port and by `exec` for an access while RST is asserted (R107, U15). Safe. -/
  | accessDuringReset
  deriving DecidableEq, Repr

/-- What one step answers. -/
abbrev Out := Host.Outcome State Fault Refusal

/-- The machine right after reset: the values of R39, RST released, TRACE ending in `RESET` (R104). -/
def State.reset : State where
  sclO := true
  sdaO := true
  sdaOe := true
  busy := false
  nack := false
  illegal := false
  rxbyte := 0x00#8
  cmdw := 0x0000#16
  seq := .idle
  sr := 0x00#8
  bitcnt := 0#4
  retry := 0
  dtimer := 0
  rst := false
  held := []
  trace := [.reset]
  owner := 0
  replies := []
  agenda := []
  peer := []
  draws := 0
  picks := 0
  accepted := 0

end Sys2Proof.Machine
end

