-- ==== Sys2Proof/Machine/Operands.lean ====
section
/-!
DEFINITION. The arithmetic of the byte shifter (41_byte_shifter.md R83): unsigned, 8 bits wide. The operands of a command are
taken from its word in Decode.lean (R70); no command names a register (R19).
-/

namespace Sys2Proof.Machine

/-- `SR[7]`, the bit the transmit side drives. -/
def srTop (sr : Byte) : Bool := sr.getLsbD 7

/-- `SR << 1`: bit 7 is dropped and a 0 comes into bit 0 (R83). -/
def shiftOut (sr : Byte) : Byte := sr <<< 1

/-- `(SR << 1) | s` (R83). -/
def shiftIn (sr : Byte) (s : Bool) : Byte := (sr <<< 1) ||| (BitVec.ofBool s).zeroExtend 8

/-- The bits of a byte in the order they are sent, bit 7 first (R54). -/
def bitsMsbFirst (b : Byte) : List Bool := [7, 6, 5, 4, 3, 2, 1, 0].map fun k => b.getLsbD k

/-- The byte received from a list of samples, the first sampled bit the highest (R54, R83). -/
def byteOfSamples (bits : List Bool) : Byte := bits.foldl shiftIn 0x00#8

end Sys2Proof.Machine
end

