-- ==== Sys2Proof/Machine/Flags.lean ====
section
/-!
DEFINITION. The host-visible registers as views of the state (10_state.md section 4), and the writers of the three flags.
-/

namespace Sys2Proof.Machine

/-- STATUS: `{10'b0, SDA_O, SCL_O, SDA_OE, ILLEGAL, NACK, BUSY}`, the mirrors live (R26, R30, R59). -/
def State.status (s : State) : Word :=
  0#10 ++ BitVec.ofBool s.sdaO ++ BitVec.ofBool s.sclO ++ BitVec.ofBool s.sdaOe
    ++ BitVec.ofBool s.illegal ++ BitVec.ofBool s.nack ++ BitVec.ofBool s.busy

/-- RXDATA: `RXBYTE` zero-extended (R31, R59). -/
def State.rxdata (s : State) : Word := s.rxbyte.zeroExtend 16

/-- `ILLEGAL`, written by every `CMD` write when it is accepted (R29). -/
def State.writeIllegal (v : Bool) (s : State) : State := { s with illegal := v }

/-- The results a command commits at its last step: NACK for WAIT_ACK, RXBYTE for READ_BYTE, nothing else (R60, R28, R31). -/
def State.commit (c : Instr) (path : Path) (s : State) : State :=
  match c with
  | .start => s
  | .stop => s
  | .sendByte _ => s
  | .waitAck => { s with nack := decide (path = .timedOut) }
  | .sendAck _ => s
  | .readByte => { s with rxbyte := s.sr }

end Sys2Proof.Machine
end

