-- ==== Sys2Proof/Machine/Sequences.lean ====
section
/-!
DEFINITION. The primitive list of every command, in the order its rule gives (00_scope.md R15: content and order normative).
A register transfer of the pseudocode is no primitive: it happens in the step of the primitive it follows (log entry 7).
-/

namespace Sys2Proof.Machine

/-- One step of a command: a primitive (R42), with the register transfers that follow it. -/
inductive Op where
  /-- `DirOut()` (R43). -/
  | dirOut
  /-- `DirIn()` (R44). -/
  | dirIn
  /-- `Set(SCL, v)` (R45). -/
  | setScl (v : Bool)
  /-- `Set(SDA, v)` (R46). -/
  | setSda (v : Bool)
  /-- `Delay(n)` (R49). -/
  | delay (n : Nat)
  /-- `DirOut()`, then `SR <- B; BITCNT <- 0` (R81). -/
  | dirOutLoad (b : Byte)
  /-- `Set(SDA, SR[7])` (R81). -/
  | setSdaTop
  /-- `Set(SCL, 0)`, then `SR <- SR << 1; BITCNT <- BITCNT + 1` (R81). -/
  | sclLowShift
  /-- `DirIn()`, then `SR <- 0; BITCNT <- 0` (R82). -/
  | dirInClear
  /-- `s <- Get(SDA)`, then `SR <- (SR << 1) | s; BITCNT <- BITCNT + 1` (R82). -/
  | getShift
  /-- `Set(SCL, 1)`, then `RETRY <- 0` (R85). -/
  | sclHighArm
  /-- `s <- Get(SDA)`, then `RETRY <- RETRY + 1` and the branch (R85). -/
  | getTest
  deriving DecidableEq, Repr

/-- START (R78). -/
def startOps : List Op :=
  [.dirOut, .setSda true, .delay 1, .setScl true, .delay 1, .setSda false, .delay 1, .setScl false]

/-- STOP, which is `STOP_SEQ` (R79). -/
def stopOps : List Op :=
  [.dirOut, .setScl false, .setSda false, .delay 1, .setScl true, .delay 1, .setSda true, .delay 1]

/-- One bit of SEND_BYTE (R81). -/
def sendBitOps : List Op := [.setSdaTop, .delay 1, .setScl true, .delay 1, .sclLowShift]

/-- SEND_BYTE #B (R81). -/
def sendByteOps (b : Byte) : List Op :=
  .dirOutLoad b ::
    (sendBitOps ++ sendBitOps ++ sendBitOps ++ sendBitOps ++ sendBitOps ++ sendBitOps ++ sendBitOps ++ sendBitOps)

/-- WAIT_ACK, steps 1 to 4 (R85). -/
def waitAckEntryOps : List Op := [.dirIn, .setSda true, .delay 1, .sclHighArm]

/-- WAIT_ACK from label ACKED (R85). -/
def ackedOps : List Op := [.setScl false, .dirOut]

/-- WAIT_ACK from label TIMEOUT: `STOP_SEQ` (R85). -/
def timedOutOps : List Op := stopOps

/-- SEND_ACK #N (R86). -/
def sendAckOps (n : Bool) : List Op :=
  [.dirOut, .setScl false, .setSda n, .delay 1, .setScl true, .delay 1, .setScl false, .setSda true]

/-- One bit of READ_BYTE (R82). -/
def readBitOps : List Op := [.setScl false, .delay 1, .setScl true, .delay 1, .getShift]

/-- READ_BYTE (R82). -/
def readByteOps : List Op :=
  .dirInClear ::
    (readBitOps ++ readBitOps ++ readBitOps ++ readBitOps ++ readBitOps ++ readBitOps ++ readBitOps ++ readBitOps
      ++ [.setScl false])

/-- Where WAIT_ACK's list goes on after `retry` samples: four entry primitives and `retry` pairs come first (R85). -/
def branchIndex (retry : Nat) : Nat := 4 + 2 * retry

/-- The primitive at index `p` of WAIT_ACK's list, with its loop unrolled and its branch taken as `path` says, after `retry`
samples (R33, R85). While the branch is not taken, label L's pair `Delay(1)`, `Get(SDA)` comes again and again. -/
def waitAckOp (path : Path) (p retry : Nat) : Option Op :=
  match path with
  | .main => if p < 4 then waitAckEntryOps[p]? else some (if p % 2 = 0 then .delay 1 else .getTest)
  | .acked => ackedOps[p - branchIndex retry]?
  | .timedOut => timedOutOps[p - branchIndex retry]?

/-- The primitive at index `p` of the command's list, none past its end (R33). -/
def opAt (c : Instr) (path : Path) (p retry : Nat) : Option Op :=
  match c with
  | .start => startOps[p]?
  | .stop => stopOps[p]?
  | .sendByte b => (sendByteOps b)[p]?
  | .waitAck => waitAckOp path p retry
  | .sendAck n => (sendAckOps n)[p]?
  | .readByte => readByteOps[p]?

/-- The most primitives the command can take (R118). -/
def maxPrimitives : Instr → Nat
  | .start => 8
  | .stop => 8
  | .sendByte _ => 41
  | .waitAck => 2 * Config.nRetry + 12
  | .sendAck _ => 8
  | .readByte => 42

end Sys2Proof.Machine
end

