-- ==== Sys2Proof/Machine/Ops.lean ====
section
/-!
DEFINITION. The named operations: the GPIO primitives (20_memory.md section 2), one controller step, running a command, and reset.
The controller has no exceptions, so there is no taking of one and no return from one (R88, R94, R95); the operation that
aborts a command is reset (R106).
-/

namespace Sys2Proof.Machine

/-- Go on from a next state; a fault or a refusal stops. -/
def andThen (o : Out) (f : State → Out) : Out :=
  match o with
  | .next s => f s
  | .fault r => .fault r
  | .refused r => .refused r

/-- Every primitive appends one event (R42). -/
def State.log (e : Event) (s : State) : State := { s with trace := s.trace ++ [e] }

/-- `DirOut()` (R43). -/
def State.dirOut (s : State) : State := { s with sdaOe := true }.log .dirOut

/-- `DirIn()` (R44). -/
def State.dirIn (s : State) : State := { s with sdaOe := false }.log .dirIn

/-- `Set(SCL, v)` (R45). -/
def State.setScl (v : Bool) (s : State) : State := { s with sclO := v }.log (.set .scl v)

/-- `Set(SDA, v)` (R46): the latch only, whatever the direction. -/
def State.setSda (v : Bool) (s : State) : State := { s with sdaO := v }.log (.set .sda v)

/-- `Delay(n)` (R49): no line and no register changes. DTIMER has run down to 0 when the primitive is over (R36, log entry 6). -/
def State.delay (n : Nat) (s : State) : State := { s with dtimer := 0 }.log (.delay n)

/-- The PEER's bit at the `k`-th draw from now: as `State.peer` gives it, else a free value (R18, log entry 3). -/
def State.peerBit (s : State) (k : Nat) : Bool := (s.peer[k]?).getD (Config.peerSda (s.draws + k))

/-- A draw is used up. -/
def State.takeDraw (s : State) : State := { s with peer := s.peer.drop 1, draws := s.draws + 1 }

/-- `s <- Get(SDA)`, then `use s` (R47). -/
def State.getSda (s : State) (use : Bool → State → State) : Out :=
  if s.sdaOe then .fault .readWhileOutput
  else .next (use (s.peerBit 0) (s.takeDraw.log (.get (s.peerBit 0))))

/-- `SR <- B; BITCNT <- 0` (R81), and with 0 for B, R82. -/
def State.loadShifter (b : Byte) (s : State) : State := { s with sr := b, bitcnt := 0#4 }

/-- `SR <- SR << 1; BITCNT <- BITCNT + 1` (R81). -/
def State.shiftOneOut (s : State) : State := { s with sr := shiftOut s.sr, bitcnt := s.bitcnt + 1#4 }

/-- `SR <- (SR << 1) | b; BITCNT <- BITCNT + 1` (R82). -/
def State.shiftOneIn (b : Bool) (s : State) : State := { s with sr := shiftIn s.sr b, bitcnt := s.bitcnt + 1#4 }

/-- `RETRY <- 0` (R85). -/
def State.armRetry (s : State) : State := { s with retry := 0 }

/-- WAIT_ACK's branch after `retry` samples, the last of which read `b`, under the budget `budget`: the test for 0 comes before
the test of the budget (R85, R87, R93). -/
def ackBranch (budget retry : Nat) (b : Bool) : Path :=
  if b = false then .acked else if retry < budget then .main else .timedOut

/-- SEQ goes on along `path`. -/
def State.takePath (path : Path) (s : State) : State :=
  match s.seq with
  | .idle => s
  | .run c p _ => { s with seq := .run c p path }

/-- `RETRY <- RETRY + 1` and the branch on the sample `b` (R85). -/
def State.testAck (b : Bool) (s : State) : State :=
  ({ s with retry := s.retry + 1 }).takePath (ackBranch Config.nRetry (s.retry + 1) b)

/-- One primitive with the transfers that follow it. -/
def doOp (op : Op) (s : State) : Out :=
  match op with
  | .dirOut => .next s.dirOut
  | .dirIn => .next s.dirIn
  | .setScl v => .next (s.setScl v)
  | .setSda v => .next (s.setSda v)
  | .delay n => .next (s.delay n)
  | .dirOutLoad b => .next (s.dirOut.loadShifter b)
  | .setSdaTop => .next (s.setSda (srTop s.sr))
  | .sclLowShift => .next (s.setScl false).shiftOneOut
  | .dirInClear => .next (s.dirIn.loadShifter 0x00#8)
  | .getShift => s.getSda State.shiftOneIn
  | .sclHighArm => .next (s.setScl true).armRetry
  | .getTest => s.getSda State.testAck

/-- The port tells the agent whose write is being served that it is complete (R60). -/
def State.replyDone (s : State) : State := { s with replies := s.replies ++ [.done s.owner] }

/-- The command ends: its results are committed, `BUSY <- 0`, `SEQ <- IDLE`, and the host's write completes (R60). -/
def State.finish (c : Instr) (path : Path) (s : State) : State :=
  ({ s.commit c path with busy := false, seq := .idle }).replyDone

/-- SEQ moves to the next primitive. Past the last one the command ends, in the same step (R27, log entry 7). -/
def State.moveOn (s : State) : State :=
  match s.seq with
  | .idle => s
  | .run c p path =>
    if (opAt c path (p + 1) s.retry).isNone then s.finish c path else { s with seq := .run c (p + 1) path }

/-- One step of the CONTROLLER (R17): the next primitive of the running command. With no command it does nothing. -/
def controllerStep (s : State) : Out :=
  match s.seq with
  | .idle => .next s
  | .run c p path =>
    match opAt c path p s.retry with
    | none => .next (s.finish c path)
    | some op => andThen (doOp op s) fun s' => .next s'.moveOn

/-- Up to `n` steps of the CONTROLLER with nobody else moving, ending early when its command has ended. -/
def runSteps : Nat → State → Out
  | 0, s => .next s
  | n + 1, s =>
    match s.seq with
    | .idle => .next s
    | .run _ _ _ => andThen (controllerStep s) (runSteps n)

/-- The time an arrival is given in: the events of TRACE and the words accepted (log entries 2 and 23). -/
def State.now (s : State) : Nat := s.trace.length + s.accepted

/-- How many steps the CONTROLLER takes before anybody else moves: up to the time of the next arrival, or to the end of the
command `c` when that arrival waits for it or there is none. -/
def State.stepsAlone (s : State) (c : Instr) : Nat :=
  match s.agenda with
  | [] => maxPrimitives c
  | a :: _ =>
    match a.time with
    | none => maxPrimitives c
    | some n => n - s.now

/-- The CONTROLLER goes on with its command, to its end or to the next arrival (log entry 1). -/
def State.proceed (s : State) : Out :=
  match s.seq with
  | .idle => .next s
  | .run c _ _ => runSteps (s.stepsAlone c) s

/-- The step that accepts a word: it writes `ILLEGAL` (R29), and it counts in the time of arrivals as one step of its own (R60;
log entry 23). -/
def State.acceptWord (illegal : Bool) (s : State) : State := { s.writeIllegal illegal with accepted := s.accepted + 1 }

/-- A legal word is accepted: `ILLEGAL <- 0; BUSY <- 1; SEQ <- RUN(op(w), 0)`, before the first primitive (R60). -/
def State.accept (i : Instr) (s : State) : State :=
  { s.acceptWord false with busy := true, seq := .run i 0 .main }

/-- Carry out command `i`: accept it, then perform its primitives (R60), as many as come before the next arrival: none, if that
comes between the acceptance and the first primitive (log entries 1 and 23). While RST is asserted the access is refused (R107). While
another command runs the write waits and nothing happens yet (R60; log entry 11). -/
def State.carryOut (i : Instr) (s : State) : Out :=
  if s.rst then .refused .accessDuringReset
  else if s.busy then .next s
  else (s.accept i).proceed

/-- An illegal word is accepted: `ILLEGAL <- 1` and the host's write completes, and nothing else (R60, R73). -/
def State.rejectWord (s : State) : State := (s.acceptWord true).replyDone

/-- The writes that reset drops complete for their hosts, with no effect: the running command's own, then the held ones
(R106; log entry 9). -/
def State.droppedReplies (s : State) : List Reply :=
  (if s.busy then [.done s.owner] else []) ++ s.held.map fun x => .done x.agent

/-- RST is asserted (R104, R106): every piece of state takes its reset value at once, whatever was running; held writes are
dropped; `RESET` is appended to TRACE. What belongs to the outside stays. -/
def State.takeReset (s : State) : State :=
  { State.reset with
    rst := true
    trace := s.trace ++ [.reset]
    owner := s.owner
    replies := s.replies ++ s.droppedReplies
    agenda := s.agenda
    peer := s.peer
    draws := s.draws
    picks := s.picks
    accepted := s.accepted }

end Sys2Proof.Machine
end

