-- ==== Sys2Proof/Machine/AckNack.lean ====
section
/-!
DEFINITION. The ACK/NACK detector and generator: WAIT_ACK and SEND_ACK (42_ack_nack.md).
-/

namespace Sys2Proof.Machine

/-- WAIT_ACK (R85). -/
def execWaitAck (s : State) : Out := s.carryOut .waitAck

/-- SEND_ACK #N (R86). -/
def execSendAck (n : Bool) (s : State) : Out := s.carryOut (.sendAck n)

end Sys2Proof.Machine
end

