-- ==== Sys2Proof/Machine/ByteShifter.lean ====
section
/-!
DEFINITION. The byte shifter: SEND_BYTE and READ_BYTE (41_byte_shifter.md).
-/

namespace Sys2Proof.Machine

/-- SEND_BYTE #B (R81). -/
def execSendByte (b : Byte) (s : State) : Out := s.carryOut (.sendByte b)

/-- READ_BYTE (R82). -/
def execReadByte (s : State) : Out := s.carryOut .readByte

end Sys2Proof.Machine
end

