-- ==== Sys2Proof/Machine/StartStop.lean ====
section
/-!
DEFINITION. The start/stop generator: START and STOP (40_start_stop.md). Neither keeps a record that a frame is open (R80).
-/

namespace Sys2Proof.Machine

/-- START (R78). -/
def execStart (s : State) : Out := s.carryOut .start

/-- STOP (R79). -/
def execStop (s : State) : Out := s.carryOut .stop

end Sys2Proof.Machine
end

