-- ==== Sys2Proof/Machine/Dispatch.lean ====
section
/-!
DEFINITION. One arm per command.
-/

namespace Sys2Proof.Machine

def exec (i : Instr) (s : State) : Host.Outcome State Fault Refusal :=
  match i with
  | .start => Sys2Proof.Machine.execStart s
  | .stop => Sys2Proof.Machine.execStop s
  | .sendByte b => Sys2Proof.Machine.execSendByte b s
  | .waitAck => Sys2Proof.Machine.execWaitAck s
  | .sendAck n => Sys2Proof.Machine.execSendAck n s
  | .readByte => Sys2Proof.Machine.execReadByte s

end Sys2Proof.Machine
end

