-- ==== Sys2Proof/Machine/Port.lean ====
section
/-!
DEFINITION. The host port (20_memory.md section 6) and the RST input, and who moves next.
A step belongs to the next arrival if one is due; else to the running command; else to a held `CMD` write; else nothing happens.
-/

namespace Sys2Proof.Machine

/-- The byte address of register index `idx` for a byte-addressed host (R41). -/
def regAddress (idx : Nat) : Nat := Config.regBase + 2 * idx

/-- The register index at a byte address, none outside the block or inside a register (R41, R57). -/
def regIndex (addr : Nat) : Option Nat :=
  if Config.regBase ≤ addr ∧ addr - Config.regBase < 8 ∧ (addr - Config.regBase) % 2 = 0
  then some ((addr - Config.regBase) / 2) else none

/-- An access the port takes: one whole 16-bit register, index 0 to 3 (R57). -/
def wholeAccess (idx size : Nat) : Bool := decide (size = 2) && decide (idx ≤ 3)

/-- `MemRead(idx, 2)` (R59). CMD and index 3 read 0 (R25, R32). -/
def State.memRead (idx : Nat) (s : State) : Word :=
  match idx with
  | 0 => 0x0000#16
  | 1 => s.status
  | 2 => s.rxdata
  | _ => 0x0000#16

/-- `MemWrite(idx, 2, w)` as it arrives: a write to `CMD` stands at the port until it is accepted, any other is ignored and
complete (R60, R58). -/
def State.memWrite (agent idx : Nat) (w : Word) (s : State) : State :=
  if idx = 0 then { s with held := s.held ++ [⟨agent, w⟩] }
  else { s with replies := s.replies ++ [.done agent] }

/-- A host access is refused while RST is asserted (R107), and when it is not a whole 16-bit access (R57). -/
def State.hostAccess (idx size : Nat) (s : State) (s' : State) : Out :=
  if s.rst then .refused .accessDuringReset
  else if wholeAccess idx size then .next s' else .refused .badAccess

/-- The RST input takes a level. Only its rise is a reset; while it stays high every field stays as reset left it (R104). -/
def State.setRst (level : Bool) (s : State) : State :=
  if level then (if s.rst then s else s.takeReset) else { s with rst := false }

/-- An input takes effect. -/
def State.arrive (x : Input) (s : State) : Out :=
  match x with
  | .rst level => .next (s.setRst level)
  | .read agent idx size => s.hostAccess idx size { s with replies := s.replies ++ [.data agent idx (s.memRead idx)] }
  | .write agent idx size w => s.hostAccess idx size (s.memWrite agent idx w)

/-- The controller is idle and no write is held. -/
def State.quiet (s : State) : Bool := decide (s.seq = .idle) && s.held.isEmpty

/-- The arrival comes now. -/
def State.due (a : Arrival) (s : State) : Bool :=
  s.rst || s.quiet || (match a.time with
    | none => false
    | some n => decide (n ≤ s.now))

/-- The place among the held writes of the one that is accepted next (U8; log entry 10). -/
def State.heldChoice (s : State) : Nat := Config.heldPick s.picks % s.held.length

/-- A held write leaves the port to be accepted. Which one of several is open (R61, U8; log entry 10). -/
def State.takeHeld (s : State) : Option (PortWrite × State) :=
  match s.held with
  | [] => none
  | [x] => some (x, { s with held := [] })
  | x :: xs =>
    some (((x :: xs)[s.heldChoice]?).getD x,
      { s with held := (x :: xs).eraseIdx s.heldChoice, picks := s.picks + 1 })

/-- `CMDW <- w` (R60). -/
def State.latch (x : PortWrite) (s : State) : State := { s with cmdw := x.word, owner := x.agent }

/-- A write to `CMD` is accepted with `BUSY = 0`: its command is carried out by `run`, or its word is illegal (R60). -/
def State.acceptWrite (run : Instr → State → Out) (x : PortWrite) (s : State) : Out :=
  match decode x.word with
  | .command i => run i (s.latch x)
  | .illegal _ => .next (s.latch x).rejectWord

/-- The controller's move: go on with the running command, else accept a held write, else wait. It does nothing while RST is
asserted (R104). -/
def State.controllerMove (run : Instr → State → Out) (s : State) : Out :=
  if s.rst then .next s
  else match s.seq with
    | .run _ _ _ => s.proceed
    | .idle =>
      match s.takeHeld with
      | none => .next s
      | some (x, s') => s'.acceptWrite run x

/-- The next move of the machine and its outside, with `run` for the commands (log entry 2). -/
def State.nextMove (run : Instr → State → Out) (s : State) : Out :=
  match s.agenda with
  | [] => s.controllerMove run
  | a :: rest => if s.due a then ({ s with agenda := rest }).arrive a.input else s.controllerMove run

/-- The state in which the very next move carries out the `CMD` write of the word `w` by agent 0: the controller idle, that
write alone at the port, nothing else due (log entry 15). -/
def State.presentWord (w : Word) (s : State) : State :=
  { s with rst := false, busy := false, seq := .idle, held := [⟨0, w⟩], agenda := [] }

end Sys2Proof.Machine
end

