-- ==== Sys2Proof/Machine/Step.lean ====
section
/-!
DEFINITION. The step: one move of the controller or of its outside, with `exec` for the commands.
-/

namespace Sys2Proof.Machine

/-- One step. -/
def step (s : State) : Host.Outcome State Fault Refusal := s.nextMove exec

/-- The command word `w`, of `nbits` bits, stands at the port as the next thing `step` carries out. -/
def State.withFetchWord (s : State) (nbits w : Nat) : State := s.presentWord (BitVec.ofNat 16 (w % 2 ^ nbits))

end Sys2Proof.Machine
end

