-- ==== Sys2Proof/Machine/Assembler.lean ====
section
/-!
DEFINITION. The assembler of 30_encoding.md R75 and R76. It is no part of the hardware (D30); it says which words host programs write.
-/

namespace Sys2Proof.Machine

/-- The command of an assembler line, none for an operand out of range (R75, R76). -/
def expandAsm (l : AsmLine) : Option Instr :=
  if l.wf then
    some (match l with
      | .start => .start
      | .stop => .stop
      | .sendByte imm => .sendByte (BitVec.ofNat 8 imm)
      | .waitAck => .waitAck
      | .sendAck imm => .sendAck (decide (imm = 1))
      | .readByte => .readByte
      | .ack => .sendAck false
      | .nack => .sendAck true
      | .restart => .start
      | .addrW a => .sendByte (BitVec.ofNat 8 (2 * a))
      | .addrR a => .sendByte (BitVec.ofNat 8 (2 * a + 1)))
  else none

/-- The word of an assembler line, none for an assembly error (R75). -/
def assembleLine (l : AsmLine) : Option Word := (expandAsm l).map encode

/-- What a line of text can be. -/
inductive Parsed where
  /-- Nothing but blanks and a comment. -/
  | blank
  | line (l : AsmLine)
  /-- An assembly error (R75). -/
  | error
  deriving DecidableEq, Repr

/-- The text before a comment (R75). -/
def beforeComment (cs : List Char) : List Char := cs.takeWhile fun c => c != ';'

/-- The words of a text, in order; blanks separate them. -/
def textWords : List Char → List (List Char)
  | [] => []
  | c :: cs =>
    if c.isWhitespace then [] :: textWords cs
    else match textWords cs with
      | [] => [[c]]
      | w :: ws => (c :: w) :: ws

/-- The value of a digit in base `base`. -/
def digitValue (base : Nat) (c : Char) : Option Nat :=
  let v :=
    if '0' ≤ c ∧ c ≤ '9' then some (c.toNat - 48)
    else if 'a' ≤ c ∧ c ≤ 'f' then some (c.toNat - 87)
    else if 'A' ≤ c ∧ c ≤ 'F' then some (c.toNat - 55)
    else none
  v.bind fun d => if d < base then some d else none

/-- A number in base `base`, with `acc` read so far. -/
def readDigits (base acc : Nat) : List Char → Option Nat
  | [] => some acc
  | c :: cs => (digitValue base c).bind fun d => readDigits base (acc * base + d) cs

/-- A number: decimal, `0x` hexadecimal or `0b` binary (R75). -/
def readNumber : List Char → Option Nat
  | [] => none
  | '0' :: 'x' :: c :: cs => readDigits 16 0 (c :: cs)
  | '0' :: 'b' :: c :: cs => readDigits 2 0 (c :: cs)
  | c :: cs => readDigits 10 0 (c :: cs)

/-- A line from its mnemonic, in capitals, and its operand (R75, R76). -/
def lineOf (mnemonic : List Char) (imm : Option Nat) : Option AsmLine :=
  match mnemonic, imm with
  | ['S', 'T', 'A', 'R', 'T'], none => some .start
  | ['S', 'T', 'O', 'P'], none => some .stop
  | ['S', 'E', 'N', 'D', '_', 'B', 'Y', 'T', 'E'], some n => some (.sendByte n)
  | ['W', 'A', 'I', 'T', '_', 'A', 'C', 'K'], none => some .waitAck
  | ['S', 'E', 'N', 'D', '_', 'A', 'C', 'K'], some n => some (.sendAck n)
  | ['R', 'E', 'A', 'D', '_', 'B', 'Y', 'T', 'E'], none => some .readByte
  | ['A', 'C', 'K'], none => some .ack
  | ['N', 'A', 'C', 'K'], none => some .nack
  | ['R', 'E', 'S', 'T', 'A', 'R', 'T'], none => some .restart
  | ['A', 'D', 'D', 'R', '_', 'W'], some n => some (.addrW n)
  | ['A', 'D', 'D', 'R', '_', 'R'], some n => some (.addrR n)
  | _, _ => none

/-- A line, or an error. An operand out of range is an assembly error (R75). -/
def checkedLine (l : Option AsmLine) : Parsed :=
  match l with
  | none => .error
  | some l => if l.wf then .line l else .error

/-- One line of assembler text: `MNEMONIC` or `MNEMONIC #imm`, in either case, with a comment after `;` (R75). -/
def parseLine (text : List Char) : Parsed :=
  match (textWords (beforeComment text)).filter fun w => !w.isEmpty with
  | [] => .blank
  | [m] => checkedLine (lineOf (m.map Char.toUpper) none)
  | [m, '#' :: n] =>
    match readNumber n with
    | none => .error
    | some v => checkedLine (lineOf (m.map Char.toUpper) (some v))
  | _ => .error

end Sys2Proof.Machine
end

