-- ==== Sys2Proof/Machine/Bus.lean ====
section
/-!
DEFINITION. The bus: wire levels (20_memory.md section 3), the reading of a trace (R53), and the counts of a trace (R117, R118).
-/

namespace Sys2Proof.Machine

/-- The SCL wire level (R50). -/
def State.sclWire (s : State) : Bool := s.sclO

/-- The SDA wire level, wired-AND with a pull-up (R51). -/
def State.sdaWire (s : State) (peerPullsLow : Bool) : Bool :=
  if (s.sdaOe && !s.sdaO) || peerPullsLow then false else true

/-- The line state of the controller. -/
structure Lines where
  sdaOe : Bool
  sdaO : Bool
  sclO : Bool
  deriving DecidableEq, Repr

/-- The lines of a state. -/
def State.lines (s : State) : Lines := ⟨s.sdaOe, s.sdaO, s.sclO⟩

/-- The lines after an event. `RESET` sets them without a primitive (R52). -/
def Lines.after (l : Lines) (e : Event) : Lines :=
  match e with
  | .dirOut => { l with sdaOe := true }
  | .dirIn => { l with sdaOe := false }
  | .set .scl v => { l with sclO := v }
  | .set .sda v => { l with sdaO := v }
  | .get _ => l
  | .delay _ => l
  | .reset => ⟨true, true, true⟩

/-- `sda_m`: SDA with every peer released (R53). -/
def Lines.sdaM (l : Lines) : Bool := if l.sdaOe then l.sdaO else true

/-- What a reader of the bus sees (R53). -/
inductive BusEvent where
  /-- A start condition. -/
  | startCond
  /-- A stop condition. -/
  | stopCond
  /-- A clock pulse: SCL rises. -/
  | pulse
  /-- A bit time is over, SCL falls: the bit it carried. -/
  | bit (v : Bool)
  deriving DecidableEq, Repr

/-- The reader: the lines so far, and the bit of the clock pulse that is still high, while it can still be a bit time. -/
structure BusReader where
  lines : Lines
  high : Option Bool
  deriving DecidableEq, Repr

/-- What changes between two line states, with SCL high at `scl`. -/
def sdaCondition (scl : Bool) (before after : Bool) : List BusEvent :=
  if scl && before && !after then [.startCond]
  else if scl && !before && after then [.stopCond]
  else []

/-- The reading of a `RESET` at place `n` of the trace (R106, U3): SDA rising under a high SCL is a stop condition; when both
rise, the free value says which is seen first (log entry 13). -/
def readReset (n : Nat) (r : BusReader) : List BusEvent × BusReader :=
  let stop := !r.lines.sdaM && (r.lines.sclO || Config.sclRisesFirst n)
  let rise := !r.lines.sclO
  ((if rise then [.pulse] else []) ++ (if stop then [.stopCond] else []),
    ⟨⟨true, true, true⟩, if stop then none else if rise then some true else r.high⟩)

/-- The reading of one event at place `n` of the trace (R53). A sample taken in a high phase with SDA released is that phase's
bit, the last one of several, also where SDA was driven at the pulse and is released only later in the phase (log entry 13). -/
def readEvent (n : Nat) (r : BusReader) (e : Event) : List BusEvent × BusReader :=
  match e with
  | .reset => readReset n r
  | .get v => ([], { r with high := if r.lines.sdaOe then r.high else r.high.map fun _ => v })
  | e =>
    let l := r.lines.after e
    let cond := sdaCondition r.lines.sclO r.lines.sdaM l.sdaM
    if !r.lines.sclO && l.sclO then ([.pulse], ⟨l, some l.sdaM⟩)
    else if r.lines.sclO && !l.sclO then
      ((match r.high with | some v => [.bit v] | none => []), ⟨l, none⟩)
    else (cond, ⟨l, if cond.isEmpty then r.high else none⟩)

/-- The bus-level reading of a list of events that begins at place `n` of the trace (R53). -/
def readBus : Nat → BusReader → List Event → List BusEvent
  | _, _, [] => []
  | n, r, e :: es => (readEvent n r e).1 ++ readBus (n + 1) (readEvent n r e).2 es

/-- The reading of events performed from the lines `l`, with no clock pulse pending. -/
def busReading (l : Lines) (es : List Event) : List BusEvent := readBus 0 ⟨l, none⟩ es

/-- What a list of events adds to the delay units (R118). -/
def Event.delayUnits : Event → Nat
  | .delay n => n
  | .dirOut => 0
  | .dirIn => 0
  | .set _ _ => 0
  | .get _ => 0
  | .reset => 0

/-- The delay units of a list of events (R118). -/
def delayUnits (es : List Event) : Nat := (es.map Event.delayUnits).sum

/-- The duration of the delays of a list of events, in the unit of `T_UNIT` (R9, R49). -/
def delayTime (es : List Event) : Nat := delayUnits es * Config.tUnit

/-- The controller clock cycles of the delays of a list of events (R49). -/
def delayCycles (es : List Event) : Nat := delayUnits es * Config.tUnitCycles

/-- The trace of SEND_BYTE #B (R81). -/
def sendByteTrace (b : Byte) : List Event :=
  .dirOut :: (bitsMsbFirst b).flatMap fun v => [.set .sda v, .delay 1, .set .scl true, .delay 1, .set .scl false]

/-- The trace of READ_BYTE with the samples `bits` (R82). -/
def readByteTrace (bits : List Bool) : List Event :=
  .dirIn :: (bits.flatMap fun v => [.set .scl false, .delay 1, .set .scl true, .delay 1, .get v]) ++ [.set .scl false]

/-- The trace of START (R78). -/
def startTrace : List Event :=
  [.dirOut, .set .sda true, .delay 1, .set .scl true, .delay 1, .set .sda false, .delay 1, .set .scl false]

/-- The trace of `STOP_SEQ` (R79). -/
def stopTrace : List Event :=
  [.dirOut, .set .scl false, .set .sda false, .delay 1, .set .scl true, .delay 1, .set .sda true, .delay 1]

/-- The trace of SEND_ACK #N (R86). -/
def sendAckTrace (n : Bool) : List Event :=
  [.dirOut, .set .scl false, .set .sda n, .delay 1, .set .scl true, .delay 1, .set .scl false, .set .sda true]

/-- The samples of WAIT_ACK: `k` pairs of a delay and a sample (R85). -/
def samplesTrace (bits : List Bool) : List Event := bits.flatMap fun v => [.delay 1, .get v]

/-- The first four events of WAIT_ACK (R85). -/
def waitAckEntryTrace : List Event := [.dirIn, .set .sda true, .delay 1, .set .scl true]

end Sys2Proof.Machine
end

