-- ==== Sys2Proof/Safety.lean ====
section
/-!
DEFINITION. The terms claims use: when a command is alone, what the lines may rest at, the invariant of the machine, the duties of
software (70_reset_and_hazards.md sections 2 and 3).
-/

namespace Sys2Proof.Machine

/-- No arrival comes before the end of the command: the next one, if any, waits for the controller to be idle. -/
def State.undisturbed (s : State) : Bool :=
  match s.agenda with
  | [] => true
  | a :: _ => a.time.isNone

/-- The controller takes a command and runs it alone to its end: RST released, `BUSY = 0` (R103), nobody else moving. -/
abbrev State.ready (s : State) : Prop := s.rst = false ∧ s.busy = false ∧ s.undisturbed = true

/-- The controller rests only on the idle bus or with the clock held low (R109). -/
abbrev Lines.resting (l : Lines) : Prop := l.sclO = true → l.sdaOe = true ∧ l.sdaO = true

/-- The events of TRACE that came between `s` and the later state `t` (R52). -/
def State.newEvents (s t : State) : List Event := t.trace.drop s.trace.length

/-- What was put on the bus between `s` and the later state `t` (R53), with no clock pulse pending at `s`. -/
def State.seenOnBus (s t : State) : List BusEvent := readBus s.trace.length ⟨s.lines, none⟩ (s.newEvents t)

/-- No arrival is due, so the move is the controller's. -/
def State.nothingDue (s : State) : Bool :=
  match s.agenda with
  | [] => true
  | a :: _ => !s.due a

/-- What the port answers in state `t` to an access that changes nothing else: a read of a register (R59), or a write to index 1, 2 or
3 (R58, R60). Nothing for any other input. -/
def Input.answerAt (x : Input) (t : State) : Option Reply :=
  match x with
  | .rst _ => none
  | .read agent idx size => if size = 2 ∧ idx ≤ 3 then some (.data agent idx (t.memRead idx)) else none
  | .write agent idx size _ => if size = 2 ∧ 1 ≤ idx ∧ idx ≤ 3 then some (.done agent) else none

/-- Every row of the table R39 at its reset value, and no write held. -/
abbrev State.atReset (s : State) : Prop :=
  s.sclO = true ∧ s.sdaO = true ∧ s.sdaOe = true ∧ s.busy = false ∧ s.nack = false ∧ s.illegal = false ∧
  s.rxbyte = 0x00#8 ∧ s.cmdw = 0x0000#16 ∧ s.seq = .idle ∧ s.sr = 0x00#8 ∧ s.bitcnt = 0#4 ∧ s.retry = 0 ∧
  s.dtimer = 0 ∧ s.held = []

/-- What holds while the next primitive of the running command `c` is the one at index `p`: the index is inside the list, the
counters say how far the loop has come (R35, R84), and SDA is released from WAIT_ACK's and READ_BYTE's `DirIn()` on (R24). -/
def State.runningOk (c : Instr) (p : Nat) (path : Path) (s : State) : Prop :=
  match c with
  | .start => path = .main ∧ p < 8
  | .stop => path = .main ∧ p < 8 ∧ (1 ≤ p → s.sdaOe = true) ∧ (7 ≤ p → s.sdaO = true)
  | .sendByte _ => path = .main ∧ p < 41 ∧ (1 ≤ p → s.bitcnt.toNat = (p - 1) / 5)
  | .waitAck =>
    match path with
    | .main => (1 ≤ p → s.sdaOe = false) ∧ (2 ≤ p → s.sdaO = true) ∧ (4 ≤ p → s.retry = (p - 4) / 2 ∧ s.retry < Config.nRetry)
    | .acked => 1 ≤ s.retry ∧ (p = branchIndex s.retry ∨ (p = branchIndex s.retry + 1 ∧ s.sclO = false))
    | .timedOut =>
      s.retry = Config.nRetry ∧ branchIndex s.retry ≤ p ∧ p < branchIndex s.retry + 8 ∧
      (branchIndex s.retry + 1 ≤ p → s.sdaOe = true) ∧ (branchIndex s.retry + 7 ≤ p → s.sdaO = true)
  | .sendAck _ => path = .main ∧ p < 8 ∧ (7 ≤ p → s.sclO = false)
  | .readByte =>
    path = .main ∧ p < 42 ∧ (1 ≤ p → s.sdaOe = false) ∧ (1 ≤ p → s.bitcnt.toNat = (p - 1) / 5)

/-- SEQ fits the rest of the state: idle on resting lines (R109), or running the command of the latched word (R60), which was
legal (R29). -/
def State.seqOk (s : State) : Prop :=
  match s.seq with
  | .idle => s.lines.resting
  | .run c p path => s.illegal = false ∧ decode s.cmdw = .command c ∧ s.runningOk c p path

/-- The invariant of the machine: `SEQ = IDLE` exactly when `BUSY = 0` (R33), the counters in their ranges (R35, R36), every piece
of state at its reset value while RST is asserted (R104), and SEQ fitting the rest. -/
def State.Inv (s : State) : Prop :=
  (s.busy = true ↔ s.seq ≠ .idle) ∧ s.bitcnt.toNat ≤ 8 ∧ s.retry ≤ Config.nRetry ∧ s.dtimer = 0 ∧
  (s.rst = true → s.atReset) ∧ s.seqOk

/-- The build sets `T_UNIT_CYCLES` so that `T_UNIT_CYCLES / F_CLK` is the delay unit, in nanoseconds (R108, first point). A premise
about the platform. -/
def Config.Calibrated : Prop := Config.tUnitCycles * 1000000000 = Config.tUnit * Config.fClk

/-- A command that was carried out: which host agent issued it, and `STATUS.NACK` after it. -/
structure Issued where
  agent : Nat
  command : Instr
  nack : Bool
  deriving DecidableEq, Repr

/-- Where a host stands in the frame grammar (R111). -/
inductive FrameState where
  /-- No frame is open. -/
  | outside
  /-- START was issued: the address byte comes next. -/
  | started
  /-- The address byte of peer `a` was sent for writing. -/
  | addressed (a : BitVec 7)
  /-- Peer `a` has acknowledged its address and `n` bytes after it. -/
  | writing (a : BitVec 7) (n : Nat)
  /-- Byte number `n` after the address was sent. -/
  | sent (a : BitVec 7) (n : Nat)
  /-- RESTART was issued after the register byte. -/
  | restarted (a : BitVec 7)
  /-- The address byte was sent for reading. -/
  | readAddressed
  /-- The next byte can be read. -/
  | reading
  /-- A byte was read and is to be acknowledged. -/
  | byteRead
  /-- The last byte was answered with NACK: STOP comes next. -/
  | lastRead
  deriving DecidableEq, Repr

/-- The peer address in an address byte, and its lowest bit, 0 to write and 1 to read (R76). -/
def peerAddress (b : Byte) : BitVec 7 := b.extractLsb' 1 7

/-- One command of the frame grammar with its result; nothing where the grammar has no such command there. After a WAIT_ACK that
reports `NACK = 1` the frame has ended (R111, R112). -/
def frameNext (f : FrameState) (x : Issued) : Option FrameState :=
  match f with
  | .outside =>
    match x.command with
    | .start => some .started
    | _ => none
  | .started =>
    match x.command with
    | .sendByte b => if b.getLsbD 0 then none else some (.addressed (peerAddress b))
    | _ => none
  | .addressed a =>
    match x.command with
    | .waitAck => some (if x.nack then .outside else .writing a 0)
    | _ => none
  | .writing a n =>
    match x.command with
    | .sendByte _ => some (.sent a (n + 1))
    | .start => if n = 1 then some (.restarted a) else none
    | .stop => some .outside
    | _ => none
  | .sent a n =>
    match x.command with
    | .waitAck => some (if x.nack then .outside else .writing a n)
    | _ => none
  | .restarted a =>
    match x.command with
    | .sendByte b => if b.getLsbD 0 && decide (peerAddress b = a) then some .readAddressed else none
    | _ => none
  | .readAddressed =>
    match x.command with
    | .waitAck => some (if x.nack then .outside else .reading)
    | _ => none
  | .reading =>
    match x.command with
    | .readByte => some .byteRead
    | _ => none
  | .byteRead =>
    match x.command with
    | .sendAck n => some (if n then .lastRead else .reading)
    | _ => none
  | .lastRead =>
    match x.command with
    | .stop => some .outside
    | _ => none

/-- The commands follow the frame grammar (R111), and inside a frame they all come from one host agent (R114). -/
def wellFramed : FrameState → Nat → List Issued → Bool
  | _, _, [] => true
  | f, agent, x :: xs =>
    (decide (f = .outside) || decide (x.agent = agent)) &&
    (match frameNext f x with
      | none => false
      | some f' => wellFramed f' x.agent xs)

/-- The lines agree with the place in the frame: the clock rests high exactly when no frame is open (R109, R110). -/
def FrameState.fits (f : FrameState) (s : State) : Prop := s.sclO = decide (f = .outside)

end Sys2Proof.Machine
end

