-- ==== Sys2Proof/Certificates/Slice0/Obligations.lean ====
section
/-!
DEFINITION. The statements for the provers. Each docstring names the rules of spec/ it rests on.
-/

open Sys2Proof Sys2Proof.Machine

/-! ## Command words -/

/-- R71, R72 (tier 3, encoding): the encoder and the decoder agree, both ways: no bit of a word is dropped and no word but a
command's own decodes to it. -/
def Obligations.DecodeAndEncodeAgree : Prop :=
  (∀ i : Instr, i.wf = true → decode (encode i) = .command i) ∧
  (∀ (w : Word) (i : Instr), decode w = .command i → encode i = w)

/-- R71: a word is legal exactly when some row of the opcode map matches it, and two rows that match one word are one row. -/
def Obligations.ExactlyOneRowMatchesALegalWord : Prop :=
  ∀ w : Word,
    (illegalWord w = false ↔ ∃ i, selectsRow w i = true) ∧
    (∀ i j, selectsRow w i = true → selectsRow w j = true → rowMatch i = rowMatch j ∧ rowMask i = rowMask j)

/-- R72: exactly 262 words are legal. -/
def Obligations.LegalWordsNumber262 : Prop :=
  ∃ l : List Word, l.Nodup ∧ l.length = 262 ∧ ∀ w : Word, illegalWord w = false ↔ w ∈ l

/-- 95_test_vectors.md 2.1: words written out from R68 and R71 decode to their commands, and the listed illegal ones do not. -/
def Obligations.SpecWordsDecode : Prop :=
  decode 0b0000000100000000#16 = .command .start ∧
  decode 0b0000001000000000#16 = .command .stop ∧
  decode 0b0000001110100101#16 = .command (.sendByte 0xA5#8) ∧
  decode 0b0000010000000000#16 = .command .waitAck ∧
  decode 0b0000010100000000#16 = .command (.sendAck false) ∧
  decode 0b0000010100000001#16 = .command (.sendAck true) ∧
  decode 0b0000011000000000#16 = .command .readByte ∧
  illegalWord 0x0000#16 = true ∧ illegalWord 0x0101#16 = true ∧ illegalWord 0x0502#16 = true ∧
  illegalWord 0x0700#16 = true ∧ illegalWord 0x0B00#16 = true

/-- R75: the words of the six commands, and no word for an operand out of range; R75 and R76: no line gives an illegal word. -/
def Obligations.AssemblerEmitsOnlyLegalWords : Prop :=
  assembleLine .start = some 0x0100#16 ∧ assembleLine .stop = some 0x0200#16 ∧ assembleLine .waitAck = some 0x0400#16 ∧
  assembleLine .readByte = some 0x0600#16 ∧
  (∀ imm : Nat, assembleLine (.sendByte imm) = if imm < 256 then some (0x0300#16 ||| BitVec.ofNat 16 imm) else none) ∧
  (∀ imm : Nat, assembleLine (.sendAck imm) = if imm < 2 then some (0x0500#16 ||| BitVec.ofNat 16 imm) else none) ∧
  (∀ (l : AsmLine) (w : Word), assembleLine l = some w → illegalWord w = false)

/-- R76: the expansions of the pseudo-instructions, with the read/write bit lowest in the address byte. -/
def Obligations.PseudoInstructionsExpand : Prop :=
  assembleLine .ack = assembleLine (.sendAck 0) ∧ assembleLine .ack = some 0x0500#16 ∧
  assembleLine .nack = assembleLine (.sendAck 1) ∧ assembleLine .nack = some 0x0501#16 ∧
  assembleLine .restart = assembleLine .start ∧ assembleLine .restart = some 0x0100#16 ∧
  (∀ a, a < 128 →
    assembleLine (.addrW a) = assembleLine (.sendByte (2 * a)) ∧ assembleLine (.addrR a) = assembleLine (.sendByte (2 * a + 1)) ∧
    assembleLine (.addrW a) = some (0x0300#16 ||| (BitVec.ofNat 16 a <<< 1)) ∧
    assembleLine (.addrR a) = some (0x0300#16 ||| (BitVec.ofNat 16 a <<< 1) ||| 1#16)) ∧
  (∀ a, 128 ≤ a → assembleLine (.addrW a) = none ∧ assembleLine (.addrR a) = none)

/-! ## Primitives, wire and shifter -/

/-- R43, R44: the direction primitives, and what they do to the wire. -/
def Obligations.DirectionPrimitives : Prop :=
  ∀ (s : State) (pull : Bool),
    doOp .dirOut s = .next { s with sdaOe := true, trace := s.trace ++ [.dirOut] } ∧
    s.dirOut.sdaWire pull = (s.sdaO && !pull) ∧
    doOp .dirIn s = .next { s with sdaOe := false, trace := s.trace ++ [.dirIn] } ∧
    s.dirIn.sdaWire pull = !pull

/-- R45, R46: the level primitives. A write of the data latch changes the wire only while SDA is an output. -/
def Obligations.LevelPrimitives : Prop :=
  ∀ (s : State) (v pull : Bool),
    doOp (.setScl v) s = .next { s with sclO := v, trace := s.trace ++ [.set .scl v] } ∧
    doOp (.setSda v) s = .next { s with sdaO := v, trace := s.trace ++ [.set .sda v] } ∧
    (s.sdaOe = false → (s.setSda v).sdaWire pull = s.sdaWire pull) ∧
    (s.sdaOe = true → (s.setSda v).sdaWire pull = (v && !pull))

/-- R47: `Get(SDA)` is a fault while SDA is an output; else it gives the fresh draw, appends it to TRACE and changes nothing else of
the controller. -/
def Obligations.GetSamplesTheDraw : Prop :=
  ∀ (s : State) (use : Bool → State → State),
    (s.sdaOe = true → s.getSda use = .fault .readWhileOutput) ∧
    (s.sdaOe = false →
      s.getSda use =
        .next (use (s.peerBit 0)
          { s with peer := s.peer.drop 1, draws := s.draws + 1, trace := s.trace ++ [.get (s.peerBit 0)] }))

/-- R51, R50: the wire levels. -/
def Obligations.WireLevels : Prop :=
  ∀ (s : State) (pull : Bool),
    s.sclWire = s.sclO ∧
    (s.sdaWire pull = false ↔ (s.sdaOe = true ∧ s.sdaO = false) ∨ pull = true)

/-- R83: the arithmetic of the shifter on both sides, and the zero-extension of the received byte. -/
def Obligations.ShifterArithmetic : Prop :=
  (∀ b : Byte, (shiftOut b).toNat = (2 * b.toNat) % 256) ∧
  (∀ (b : Byte) (k : Nat), k ≤ 7 → srTop (shiftOut^[k] b) = b.getLsbD (7 - k)) ∧
  (∀ (sr : Byte) (s : Bool), (shiftIn sr s).toNat = (2 * sr.toNat) % 256 + s.toNat) ∧
  (∀ s1 s2 s3 s4 s5 s6 s7 s8 : Bool,
    (byteOfSamples [s1, s2, s3, s4, s5, s6, s7, s8]).toNat =
      s1.toNat * 2 ^ 7 + s2.toNat * 2 ^ 6 + s3.toNat * 2 ^ 5 + s4.toNat * 2 ^ 4 + s5.toNat * 2 ^ 3 + s6.toNat * 2 ^ 2
        + s7.toNat * 2 ^ 1 + s8.toNat * 2 ^ 0) ∧
  (∀ s : State, s.rxdata.toNat = s.rxbyte.toNat)

/-- R26, R30: the fields of STATUS, the mirrors live, and the reserved bits 0. -/
def Obligations.StatusFields : Prop :=
  ∀ (s : State) (k : Nat),
    s.status.getLsbD 0 = s.busy ∧ s.status.getLsbD 1 = s.nack ∧ s.status.getLsbD 2 = s.illegal ∧
    s.status.getLsbD 3 = s.sdaOe ∧ s.status.getLsbD 4 = s.sclO ∧ s.status.getLsbD 5 = s.sdaO ∧
    (6 ≤ k → s.status.getLsbD k = false)

/-! ## The commands alone -/

/-- R78 (pseudocode, end state, registers written, trace): START from any state that takes a command. -/
def Obligations.StartCompletes : Prop :=
  ∀ s : State, s.ready →
    exec .start s = .next
      { s with
        sdaOe := true, sdaO := false, sclO := false, illegal := false, busy := false, seq := .idle, dtimer := 0
        trace := s.trace ++
          [.dirOut, .set .sda true, .delay 1, .set .scl true, .delay 1, .set .sda false, .delay 1, .set .scl false]
        replies := s.replies ++ [.done s.owner]
        accepted := s.accepted + 1 }

/-- R79 (pseudocode, end state, registers written, trace): STOP from any state that takes a command. -/
def Obligations.StopCompletes : Prop :=
  ∀ s : State, s.ready →
    exec .stop s = .next
      { s with
        sdaOe := true, sdaO := true, sclO := true, illegal := false, busy := false, seq := .idle, dtimer := 0
        trace := s.trace ++
          [.dirOut, .set .scl false, .set .sda false, .delay 1, .set .scl true, .delay 1, .set .sda true, .delay 1]
        replies := s.replies ++ [.done s.owner]
        accepted := s.accepted + 1 }

/-- R81 (pseudocode, end state, registers written, trace): SEND_BYTE of every byte from any state that takes a command. -/
def Obligations.SendByteCompletes : Prop :=
  ∀ (b : Byte) (s : State), s.ready →
    exec (.sendByte b) s = .next
      { s with
        sdaOe := true, sdaO := b.getLsbD 0, sclO := false, illegal := false, busy := false, seq := .idle, dtimer := 0
        sr := 0x00#8, bitcnt := 8#4
        trace := s.trace ++ .dirOut :: (bitsMsbFirst b).flatMap
          fun v => [.set .sda v, .delay 1, .set .scl true, .delay 1, .set .scl false]
        replies := s.replies ++ [.done s.owner]
        accepted := s.accepted + 1 }

/-- R86 (pseudocode, end state, registers written, trace): SEND_ACK of both levels from any state that takes a command. -/
def Obligations.SendAckCompletes : Prop :=
  ∀ (n : Bool) (s : State), s.ready →
    exec (.sendAck n) s = .next
      { s with
        sdaOe := true, sdaO := true, sclO := false, illegal := false, busy := false, seq := .idle, dtimer := 0
        trace := s.trace ++
          [.dirOut, .set .scl false, .set .sda n, .delay 1, .set .scl true, .delay 1, .set .scl false, .set .sda true]
        replies := s.replies ++ [.done s.owner]
        accepted := s.accepted + 1 }

/-- R82 (pseudocode, end state, registers written, trace): READ_BYTE from any state that takes a command, for all draws; sample `k`
becomes bit `8 - k` of RXBYTE. -/
def Obligations.ReadByteCompletes : Prop :=
  ∀ s : State, s.ready →
    ∃ byte : Byte, (∀ k, k < 8 → byte.getLsbD (7 - k) = s.peerBit k) ∧
      exec .readByte s = .next
        { s with
          sdaOe := false, sclO := false, illegal := false, busy := false, seq := .idle, dtimer := 0
          rxbyte := byte, sr := byte, bitcnt := 8#4
          peer := s.peer.drop 8, draws := s.draws + 8
          trace := s.trace ++ .dirIn :: ((List.range 8).flatMap
            fun k => [.set .scl false, .delay 1, .set .scl true, .delay 1, .get (s.peerBit k)]) ++ [.set .scl false]
          replies := s.replies ++ [.done s.owner]
          accepted := s.accepted + 1 }

/-- R85 (label ACKED), R93 point 4: WAIT_ACK is Acked at the first sample that reads 0, the last one of the budget included. -/
def Obligations.WaitAckIsAckedAtTheFirstZero : Prop :=
  ∀ (s : State) (k : Nat), s.ready → k < Config.nRetry → (∀ j, j < k → s.peerBit j = true) → s.peerBit k = false →
    exec .waitAck s = .next
      { s with
        sdaOe := true, sdaO := true, sclO := false, nack := false, illegal := false, busy := false, seq := .idle, dtimer := 0
        retry := k + 1, peer := s.peer.drop (k + 1), draws := s.draws + (k + 1)
        trace := s.trace ++ [.dirIn, .set .sda true, .delay 1, .set .scl true] ++
          ((List.replicate k true ++ [false]).flatMap fun v => [.delay 1, .get v]) ++ [.set .scl false, .dirOut]
        replies := s.replies ++ [.done s.owner]
        accepted := s.accepted + 1 }

/-- R85 (label TIMEOUT): `N_RETRY` samples that all read 1 give TimedOut, and `STOP_SEQ` runs inside the command. -/
def Obligations.WaitAckTimesOutAfterTheBudget : Prop :=
  ∀ s : State, s.ready → (∀ j, j < Config.nRetry → s.peerBit j = true) →
    exec .waitAck s = .next
      { s with
        sdaOe := true, sdaO := true, sclO := true, nack := true, illegal := false, busy := false, seq := .idle, dtimer := 0
        retry := Config.nRetry, peer := s.peer.drop Config.nRetry, draws := s.draws + Config.nRetry
        trace := s.trace ++ [.dirIn, .set .sda true, .delay 1, .set .scl true] ++
          ((List.replicate Config.nRetry true).flatMap fun v => [.delay 1, .get v]) ++
          [.dirOut, .set .scl false, .set .sda false, .delay 1, .set .scl true, .delay 1, .set .sda true, .delay 1]
        replies := s.replies ++ [.done s.owner]
        accepted := s.accepted + 1 }

/-- R18, R60, R85, R117: whatever the PEER answers, every command that runs alone ends, idle and with `BUSY = 0`; and from every
state with the invariant a running command goes on and ends, at whichever primitive it stands, with the held writes still held. That
one step of the model takes it to its end is the model's choice (log entry 1). -/
def Obligations.EveryCommandEnds : Prop :=
  (∀ (i : Instr) (s : State), s.ready → ∃ t, exec i s = .next t ∧ t.seq = .idle ∧ t.busy = false) ∧
  (∀ s : State, s.Inv → s.rst = false → s.seq ≠ .idle → s.undisturbed = true →
    ∃ t, step s = .next t ∧ t.seq = .idle ∧ t.busy = false ∧ t.held = s.held)

/-- R118: how many primitives a command performs and how many delay units, alone and with the PEER answering as the row says. -/
def Obligations.PrimitiveAndDelayCounts : Prop :=
  ∀ s : State, s.ready →
    (∃ t, exec .start s = .next t ∧ (s.newEvents t).length = 8 ∧ delayUnits (s.newEvents t) = 3) ∧
    (∃ t, exec .stop s = .next t ∧ (s.newEvents t).length = 8 ∧ delayUnits (s.newEvents t) = 3) ∧
    (∀ b, ∃ t, exec (.sendByte b) s = .next t ∧ (s.newEvents t).length = 41 ∧ delayUnits (s.newEvents t) = 16) ∧
    (∀ k, k < Config.nRetry → (∀ j, j < k → s.peerBit j = true) → s.peerBit k = false →
      ∃ t, exec .waitAck s = .next t ∧ (s.newEvents t).length = 2 * (k + 1) + 6 ∧
        delayUnits (s.newEvents t) = (k + 1) + 1) ∧
    ((∀ j, j < Config.nRetry → s.peerBit j = true) →
      ∃ t, exec .waitAck s = .next t ∧ (s.newEvents t).length = 2 * Config.nRetry + 12 ∧
        delayUnits (s.newEvents t) = Config.nRetry + 4) ∧
    (∀ n, ∃ t, exec (.sendAck n) s = .next t ∧ (s.newEvents t).length = 8 ∧ delayUnits (s.newEvents t) = 2) ∧
    (∃ t, exec .readByte s = .next t ∧ (s.newEvents t).length = 42 ∧ delayUnits (s.newEvents t) = 16)

/-- R109: the line state each command leaves behind, whatever it was before. -/
def Obligations.LinesAfterEachCommand : Prop :=
  ∀ s : State, s.ready →
    (∃ t, exec .start s = .next t ∧ t.lines = ⟨true, false, false⟩) ∧
    (∃ t, exec .stop s = .next t ∧ t.lines = ⟨true, true, true⟩) ∧
    (∀ b, ∃ t, exec (.sendByte b) s = .next t ∧ t.lines = ⟨true, b.getLsbD 0, false⟩) ∧
    (∃ t, exec .waitAck s = .next t ∧ t.lines = ⟨true, true, t.nack⟩) ∧
    (∀ n, ∃ t, exec (.sendAck n) s = .next t ∧ t.lines = ⟨true, true, false⟩) ∧
    (∃ t, exec .readByte s = .next t ∧ t.lines = ⟨false, s.sdaO, false⟩)

/-! ## What the bus sees -/

/-- R78 (corner cases), R53: from every line state a command can leave behind, START shows exactly one start condition and no stop
condition: at once on the idle bus, after one clock pulse as a repeated start. -/
def Obligations.StartShowsOneStartCondition : Prop :=
  ∀ s : State, s.ready → s.lines.resting →
    ∃ t, exec .start s = .next t ∧ s.seenOnBus t = if s.sclO then [.startCond] else [.pulse, .startCond]

/-- R79 (corner cases), R53: from every line state a command can leave behind, STOP shows a clock pulse that is no bit time, then
one stop condition. -/
def Obligations.StopShowsOneStopCondition : Prop :=
  ∀ s : State, s.ready → s.lines.resting →
    ∃ t, exec .stop s = .next t ∧ s.seenOnBus t = [.pulse, .stopCond]

/-- R81, R54, R110 and S1 of 95_test_vectors.md: with SCL low at entry, SEND_BYTE shows eight bit times that carry the byte, most
significant bit first, and no condition. On the idle bus it shows only the seven bit times of B[6] to B[0], after a spurious start
condition when B[7] = 0. -/
def Obligations.SendByteShowsTheByteMsbFirst : Prop :=
  ∀ (b : Byte) (s : State), s.ready → s.lines.resting →
    ∃ t, exec (.sendByte b) s = .next t ∧
      s.seenOnBus t =
        if s.sclO then
          (if b.getLsbD 7 then [] else [.startCond]) ++
            [6, 5, 4, 3, 2, 1, 0].flatMap fun k => [.pulse, .bit (b.getLsbD k)]
        else [7, 6, 5, 4, 3, 2, 1, 0].flatMap fun k => [.pulse, .bit (b.getLsbD k)]

/-- R82, R53, R110: from every line state a command can leave behind, READ_BYTE shows eight bit times that carry the samples, and no
condition. -/
def Obligations.ReadByteShowsEightBitTimes : Prop :=
  ∀ s : State, s.ready → s.lines.resting →
    ∃ t, exec .readByte s = .next t ∧
      s.seenOnBus t = (List.range 8).flatMap fun k => [.pulse, .bit (s.peerBit k)]

/-- R86, R53, R110: from every line state a command can leave behind, SEND_ACK shows one bit time that carries N, and no condition. -/
def Obligations.SendAckShowsOneBitTime : Prop :=
  ∀ (n : Bool) (s : State), s.ready → s.lines.resting →
    ∃ t, exec (.sendAck n) s = .next t ∧ s.seenOnBus t = [.pulse, .bit n]

/-- R85, R53, R110: WAIT_ACK shows the acknowledge bit, 0 when Acked; when TimedOut it shows a 1, then the stop of `STOP_SEQ`. From
the idle bus the acknowledge clock gives no pulse (95_test_vectors.md W7). That the last of several samples is the bit of the high
phase is the model's reading (log entry 13). -/
def Obligations.WaitAckShowsAcknowledgeOrStop : Prop :=
  ∀ s : State, s.ready → s.lines.resting →
    ∃ t, exec .waitAck s = .next t ∧
      s.seenOnBus t =
        (if s.sclO then [] else [.pulse, .bit t.nack]) ++ (if t.nack then [.pulse, .stopCond] else [])

/-- R111, R110: a host that keeps to the frame grammar finds SCL low at every command inside a frame and high outside, so no
SEND_BYTE of a frame meets a high SCL. -/
def Obligations.FrameGrammarKeepsTheClockLow : Prop :=
  ∀ (f f' : FrameState) (i : Instr) (s : State), s.ready → f.fits s →
    (∃ t, exec i s = .next t ∧ (frameNext f ⟨s.owner, i, t.nack⟩ = some f' → f'.fits t)) ∧
    (∀ b nack, i = .sendByte b → frameNext f ⟨s.owner, i, nack⟩ = some f' → s.sclO = false)

/-! ## What a command leaves alone -/

/-- R28, R31, R34, R35, R73 and the frames of R78 to R86: what a command never changes, alone or cut short by an arrival: NACK and
RETRY but for WAIT_ACK, RXBYTE but for READ_BYTE, SR and BITCNT but for the byte commands, `SDA_O` for READ_BYTE, the draws but for
the two commands that sample. TRACE is only added to. -/
def Obligations.CommandFrame : Prop :=
  ∀ (i : Instr) (s t : State), exec i s = .next t →
    t.rst = s.rst ∧ t.cmdw = s.cmdw ∧ t.held = s.held ∧ t.owner = s.owner ∧ t.agenda = s.agenda ∧ t.picks = s.picks ∧
    t.accepted = s.accepted + (if s.busy then 0 else 1) ∧
    (i ≠ .waitAck → t.nack = s.nack ∧ t.retry = s.retry) ∧
    (i ≠ .readByte → t.rxbyte = s.rxbyte) ∧
    (i = .readByte → t.sdaO = s.sdaO) ∧
    (i ≠ .waitAck → i ≠ .readByte → t.peer = s.peer ∧ t.draws = s.draws) ∧
    (i ≠ .readByte → (∀ b, i ≠ .sendByte b) → t.sr = s.sr ∧ t.bitcnt = s.bitcnt) ∧
    (∃ es, t.trace = s.trace ++ es)

/-- R59 ("While a command runs, `NACK` and `RXBYTE` still hold their values from before it"), R27: a controller step that leaves the
command running leaves both, and BUSY, as they were. -/
def Obligations.ResultsWaitForTheLastStep : Prop :=
  ∀ s t : State, controllerStep s = .next t → t.seq ≠ .idle →
    t.nack = s.nack ∧ t.rxbyte = s.rxbyte ∧ t.busy = s.busy

/-- R17, R42, R62: a controller step of a running command performs one primitive: one event more, and SEQ one further or idle. -/
def Obligations.OneStepIsOnePrimitive : Prop :=
  ∀ (s t : State) (c : Instr) (p : Nat) (path : Path), s.seq = .run c p path → (opAt c path p s.retry).isSome = true →
    controllerStep s = .next t →
    (∃ e, t.trace = s.trace ++ [e] ∧ t.lines = s.lines.after e) ∧
    (t.seq = .idle ∨ ∃ path', t.seq = .run c (p + 1) path')

/-- R59, R62, R58: a command that a host read, or a write to index 1 to 3, comes into, after its acceptance or between any two of
its primitives, and that then goes on, ends in the state of the undisturbed command, apart from the answer to the access. The times of
the access are the model's (log entries 1, 2, 23). -/
def Obligations.PausingACommandChangesNothing : Prop :=
  ∀ (i : Instr) (s : State), s.rst = false → s.busy = false → s.agenda = [] →
    ∃ v, exec i s = .next v ∧ v.seq = .idle ∧ v.replies = s.replies ++ [.done s.owner] ∧
      ∀ (n : Nat) (x : Input), s.now < n → n < v.now →
        ∃ t, exec i { s with agenda := [⟨some n, x⟩] } = .next t ∧ t.now = n ∧ t.busy = true ∧
          ∀ r, x.answerAt t = some r →
            ∃ u, step t = .next u ∧ step u = .next { v with replies := s.replies ++ [r, .done s.owner] }

/-- The model's arrivals (log entries 2 and 23) with R17: a command that an input at time `n` cuts short stops at exactly that time,
or has ended by then. -/
def Obligations.ArrivalCutsTheCommandAtItsTime : Prop :=
  ∀ (i : Instr) (s : State) (x : Input) (rest : List Arrival) (n : Nat),
    s.rst = false → s.busy = false → s.agenda = ⟨some n, x⟩ :: rest → s.now < n →
    ∃ t, exec i s = .next t ∧ (t.now = n ∨ (t.seq = .idle ∧ t.busy = false ∧ t.now ≤ n))

/-! ## The port and the step -/

/-- R60: the step that accepts a legal word, alone at the port, is `exec` of its command, with the word latched and off the port.
That this one step also performs the primitives that come before the next input is the model's choice (log entry 1). -/
def Obligations.StepRunsTheDecodedCommand : Prop :=
  ∀ (s : State) (a : Nat) (w : Word) (i : Instr),
    s.rst = false → s.seq = .idle → s.nothingDue = true → s.held = [⟨a, w⟩] → decode w = .command i → i.wf = true →
    step s = exec i { s with held := [], cmdw := w, owner := a }

/-- R60, R62: while a command runs and no arrival is due, the step is the controller's. That it takes `State.stepsAlone` primitives
in a row, up to the next input or the end, is the model's choice (log entries 1 and 2). -/
def Obligations.StepGoesOnWithTheRunningCommand : Prop :=
  ∀ (s : State) (c : Instr) (p : Nat) (path : Path),
    s.rst = false → s.seq = .run c p path → s.nothingDue = true → step s = runSteps (s.stepsAlone c) s

/-- R73: which words are illegal, and that the step that accepts one writes ILLEGAL, completes the host's write, latches the word
(R60) and does nothing else. -/
def Obligations.IllegalWordOnlySetsTheFlag : Prop :=
  (∀ w : Word, illegalWord w = true ↔
    (w.extractLsb' 8 3 = 0#3 ∨ w.extractLsb' 8 3 = 7#3) ∨ w.extractLsb' 11 5 ≠ 0#5 ∨
    ((w.extractLsb' 8 3 = 1#3 ∨ w.extractLsb' 8 3 = 2#3 ∨ w.extractLsb' 8 3 = 4#3 ∨ w.extractLsb' 8 3 = 6#3) ∧
      w.extractLsb' 0 8 ≠ 0#8) ∨
    (w.extractLsb' 8 3 = 5#3 ∧ w.extractLsb' 1 7 ≠ 0#7)) ∧
  (∀ (s : State) (a : Nat) (w : Word),
    s.rst = false → s.seq = .idle → s.nothingDue = true → s.held = [⟨a, w⟩] → illegalWord w = true →
    step s = .next { s with held := [], cmdw := w, owner := a, illegal := true, accepted := s.accepted + 1, replies := s.replies ++ [.done a] })

/-- R61: of the writes the port holds, an idle controller accepts one, and the others stay held. Which one is a free value (log
entry 10); that the others keep their order in the list is the model's. -/
def Obligations.OneHeldWriteIsAccepted : Prop :=
  ∀ s : State, s.rst = false → s.seq = .idle → s.nothingDue = true → s.held ≠ [] →
    ∃ l x r k, s.held = l ++ x :: r ∧ step s = ({ s with held := l ++ r, picks := k } : State).acceptWrite exec x

/-- The model's choice for `exec` called by itself while another command runs (log entry 11): it answers the same state, as nothing
happens to a `CMD` write that waits (R60, R93 point 2). -/
def Obligations.ACommandWaitsWhileBusy : Prop :=
  ∀ (i : Instr) (s : State), s.rst = false → s.busy = true → exec i s = .next s

/-- R60, R58, R32: a write to index 1, 2 or 3 changes nothing and is complete; a write to `CMD` stands at the port, running command
or not. That its arrival is a step of its own, also with `BUSY = 0`, where R60 goes on to accept it, is the model's choice (log entry
20). -/
def Obligations.HostWritesAtThePort : Prop :=
  ∀ (s : State) (t : Option Nat) (agent idx : Nat) (w : Word) (rest : List Arrival),
    s.agenda = ⟨t, .write agent idx 2 w⟩ :: rest → s.due ⟨t, .write agent idx 2 w⟩ = true → s.rst = false →
    (idx = 0 → step s = .next { s with agenda := rest, held := s.held ++ [⟨agent, w⟩] }) ∧
    (1 ≤ idx → idx ≤ 3 → step s = .next { s with agenda := rest, replies := s.replies ++ [.done agent] })

/-- R59, R58, R25, R31, R32: a read answers its register in one step, running command or not, and changes nothing. -/
def Obligations.HostReadsAtThePort : Prop :=
  ∀ (s : State) (t : Option Nat) (agent idx : Nat) (rest : List Arrival),
    s.agenda = ⟨t, .read agent idx 2⟩ :: rest → s.due ⟨t, .read agent idx 2⟩ = true → s.rst = false → idx ≤ 3 →
    ∃ v : Word,
      step s = .next { s with agenda := rest, replies := s.replies ++ [.data agent idx v] } ∧
      v = (if idx = 1 then
            0#10 ++ BitVec.ofBool s.sdaO ++ BitVec.ofBool s.sclO ++ BitVec.ofBool s.sdaOe ++ BitVec.ofBool s.illegal
              ++ BitVec.ofBool s.nack ++ BitVec.ofBool s.busy
          else if idx = 2 then s.rxbyte.zeroExtend 16
          else 0x0000#16)

/-- R57: an access that is not one whole 16-bit register with an index from 0 to 3 is refused. -/
def Obligations.OddAccessesAreRefused : Prop :=
  ∀ (s : State) (t : Option Nat) (agent idx size : Nat) (w : Word) (rest : List Arrival),
    s.rst = false → (size ≠ 2 ∨ 4 ≤ idx) →
    (s.agenda = ⟨t, .read agent idx size⟩ :: rest → s.due ⟨t, .read agent idx size⟩ = true → step s = .refused .badAccess) ∧
    (s.agenda = ⟨t, .write agent idx size w⟩ :: rest → s.due ⟨t, .write agent idx size w⟩ = true →
      step s = .refused .badAccess)

/-- R107: a host access while RST is asserted is refused, a read and a write. That `exec` called by itself under RST refuses too is the
model's choice (log entry 11). -/
def Obligations.AccessesDuringResetAreRefused : Prop :=
  ∀ (s : State) (t : Option Nat) (agent idx size : Nat) (w : Word) (i : Instr) (rest : List Arrival), s.rst = true →
    (s.agenda = ⟨t, .read agent idx size⟩ :: rest → step s = .refused .accessDuringReset) ∧
    (s.agenda = ⟨t, .write agent idx size w⟩ :: rest → step s = .refused .accessDuringReset) ∧
    exec i s = .refused .accessDuringReset

/-- R41: register index `i` lies at `REG_BASE + 2 i`, and no other address is a register. -/
def Obligations.RegisterAddresses : Prop :=
  ∀ addr idx : Nat, regIndex addr = some idx ↔ idx ≤ 3 ∧ addr = Config.regBase + 2 * idx

/-! ## Reset and the whole machine -/

/-- R39, R104: the state after reset, and what the port reads then. -/
def Obligations.ResetHoldsTheTableValues : Prop :=
  State.reset.sclO = true ∧ State.reset.sdaO = true ∧ State.reset.sdaOe = true ∧ State.reset.busy = false ∧
  State.reset.nack = false ∧ State.reset.illegal = false ∧ State.reset.rxbyte = 0x00#8 ∧ State.reset.cmdw = 0x0000#16 ∧
  State.reset.seq = .idle ∧ State.reset.sr = 0x00#8 ∧ State.reset.bitcnt = 0#4 ∧ State.reset.retry = 0 ∧
  State.reset.dtimer = 0 ∧ State.reset.status = 0x0038#16 ∧ State.reset.rxdata = 0x0000#16

/-- R104, R106, R93 point 1: RST asserted in any state, a command running or not, gives every piece of state its reset value in that
step, drops the held writes, completes them for their hosts and appends `RESET`. That the running command's own write completes
too is the model's reading (log entry 9). -/
def Obligations.ResetAbortsWhateverRuns : Prop :=
  ∀ (s : State) (t : Option Nat) (rest : List Arrival),
    s.agenda = ⟨t, .rst true⟩ :: rest → s.due ⟨t, .rst true⟩ = true → s.rst = false →
    ∃ u, step s = .next u ∧ u.atReset ∧ u.rst = true ∧ u.status = 0x0038#16 ∧ u.rxdata = 0x0000#16 ∧
      u.trace = s.trace ++ [.reset] ∧
      u.replies = s.replies ++ (if s.busy then [.done s.owner] else []) ++ s.held.map (fun x => .done x.agent) ∧
      u.agenda = rest ∧ u.peer = s.peer ∧ u.draws = s.draws ∧ u.picks = s.picks ∧ u.owner = s.owner ∧ u.accepted = s.accepted

/-- R104: while RST stays asserted nothing moves, and its release changes nothing but RST. That RST asserted again while it is asserted
appends no further `RESET` is the model's reading: only the rise of RST is a reset (log entry 9). -/
def Obligations.NothingMovesWhileRstIsAsserted : Prop :=
  ∀ s : State, s.rst = true →
    (s.agenda = [] → step s = .next s) ∧
    (∀ t rest, s.agenda = ⟨t, .rst true⟩ :: rest → step s = .next { s with agenda := rest }) ∧
    (∀ t rest, s.agenda = ⟨t, .rst false⟩ :: rest → step s = .next { s with agenda := rest, rst := false })

/-- The invariant of `Sys2Proof/Safety.lean` holds after reset. -/
def Obligations.InvariantHoldsAtReset : Prop := State.reset.Inv

/-- R27, R33, R35, R84, R104, R109, R24 (tier 3): every step keeps the invariant, from every state that has it: `SEQ = IDLE` exactly when
`BUSY = 0`, the counters stay in range and count the loop, the controller rests only on the idle bus or with the clock low, SDA is
released where it is sampled, and RST holds every field at its reset value. -/
def Obligations.StepKeepsTheInvariant : Prop :=
  ∀ s t : State, s.Inv → step s = .next t → t.Inv

/-- R24 (tier 3): from every state with the invariant no step samples SDA while driving it: `ModelFault(ReadWhileOutput)` is never
raised, whatever the PEER, the hosts and RST do. -/
def Obligations.SdaIsNeverSampledWhileDriven : Prop :=
  ∀ (s : State) (r : Fault), s.Inv → step s ≠ .fault r

/-- R52, R62: no step rewrites TRACE: it only adds to its end. -/
def Obligations.TraceIsOnlyAddedTo : Prop :=
  ∀ s t : State, step s = .next t → ∃ es, t.trace = s.trace ++ es

/-- R28: a step changes NACK only by a reset or by ending a WAIT_ACK, and RXBYTE only by a reset or by ending a READ_BYTE (R31). -/
def Obligations.ResultsHaveOneWriter : Prop :=
  ∀ s t : State, s.Inv → step s = .next t → t.rst = false →
    (t.nack ≠ s.nack → t.seq = .idle ∧ decode t.cmdw = .command .waitAck) ∧
    (t.rxbyte ≠ s.rxbyte → t.seq = .idle ∧ decode t.cmdw = .command .readByte)

/-! ## Acceptance, the next input, idling, and a reset on the bus -/

/-- R60, R27, R29, R78: an input that comes right after the acceptance of a legal word finds the command accepted and none of its
primitives performed: `BUSY = 1`, `ILLEGAL = 0`, SEQ at the first primitive, the lines and everything else as before. That acceptance
is one step of the CONTROLLER for the time of inputs is log entry 23. -/
def Obligations.AcceptanceComesBeforeTheFirstPrimitive : Prop :=
  ∀ (s : State) (a : Nat) (w : Word) (i : Instr) (x : Input) (rest : List Arrival),
    s.rst = false → s.busy = false → s.seq = .idle → s.held = [⟨a, w⟩] → decode w = .command i →
    s.agenda = ⟨some (s.now + 1), x⟩ :: rest →
    ∃ t, step s = .next t ∧
      t = { s with
        held := [], cmdw := w, owner := a, illegal := false, busy := true, seq := .run i 0 .main
        accepted := s.accepted + 1 } ∧
      t.due ⟨some (s.now + 1), x⟩ = true ∧ t.status.getLsbD 0 = true ∧ t.lines = s.lines

/-- R60, R62 with the model's step (log entries 1 and 2): from every state with the invariant, a running command goes on to exactly
the time `n` of the next input, or has ended by then; the held writes stay held (R60). -/
def Obligations.ARunningCommandReachesTheNextInput : Prop :=
  ∀ (s : State) (n : Nat) (x : Input) (rest : List Arrival),
    s.Inv → s.rst = false → s.seq ≠ .idle → s.agenda = ⟨some n, x⟩ :: rest → s.now < n →
    ∃ t, step s = .next t ∧ t.held = s.held ∧ t.agenda = s.agenda ∧ t.accepted = s.accepted ∧
      (t.now = n ∨ (t.seq = .idle ∧ t.busy = false ∧ t.now ≤ n))

/-- R20, R105: an idle controller with no write at the port and no input due does nothing. -/
def Obligations.TheIdleControllerWaits : Prop :=
  ∀ s : State, s.rst = false → s.seq = .idle → s.held = [] → s.nothingDue = true → step s = .next s

/-- R106, U3 and X2 of 95_test_vectors.md: what a reset shows on the bus. With SDA at 1, driven or released, no condition. With SDA
driven 0 under a high SCL, a stop condition. With both lines low, a stop condition or none, as the free value says (log entry 13). -/
def Obligations.AResetShowsAStopOrNoCondition : Prop :=
  ∀ (s : State) (t : Option Nat) (rest : List Arrival),
    s.agenda = ⟨t, .rst true⟩ :: rest → s.due ⟨t, .rst true⟩ = true → s.rst = false →
    ∃ u, step s = .next u ∧ u.lines = ⟨true, true, true⟩ ∧
      (s.lines.sdaM = true → s.seenOnBus u = if s.sclO then [] else [.pulse]) ∧
      (s.lines.sdaM = false → s.sclO = true → s.seenOnBus u = [.stopCond]) ∧
      (s.lines.sdaM = false → s.sclO = false →
        s.seenOnBus u = .pulse :: if Config.sclRisesFirst s.trace.length then [.stopCond] else [])
end

