-- ==== Sys2Proof/Laws/State.lean ====
section
/-!
SUPPORT. One lemma per field per update of the state, each true by rfl, so that no proof unfolds a record update.
-/

namespace Sys2Proof.Machine

@[simp] theorem State.log_sclO (e : Event) (s : State) : (s.log e).sclO = s.sclO := rfl
@[simp] theorem State.log_sdaO (e : Event) (s : State) : (s.log e).sdaO = s.sdaO := rfl
@[simp] theorem State.log_sdaOe (e : Event) (s : State) : (s.log e).sdaOe = s.sdaOe := rfl
@[simp] theorem State.log_busy (e : Event) (s : State) : (s.log e).busy = s.busy := rfl
@[simp] theorem State.log_nack (e : Event) (s : State) : (s.log e).nack = s.nack := rfl
@[simp] theorem State.log_illegal (e : Event) (s : State) : (s.log e).illegal = s.illegal := rfl
@[simp] theorem State.log_rxbyte (e : Event) (s : State) : (s.log e).rxbyte = s.rxbyte := rfl
@[simp] theorem State.log_cmdw (e : Event) (s : State) : (s.log e).cmdw = s.cmdw := rfl
@[simp] theorem State.log_seq (e : Event) (s : State) : (s.log e).seq = s.seq := rfl
@[simp] theorem State.log_sr (e : Event) (s : State) : (s.log e).sr = s.sr := rfl
@[simp] theorem State.log_bitcnt (e : Event) (s : State) : (s.log e).bitcnt = s.bitcnt := rfl
@[simp] theorem State.log_retry (e : Event) (s : State) : (s.log e).retry = s.retry := rfl
@[simp] theorem State.log_dtimer (e : Event) (s : State) : (s.log e).dtimer = s.dtimer := rfl
@[simp] theorem State.log_rst (e : Event) (s : State) : (s.log e).rst = s.rst := rfl
@[simp] theorem State.log_held (e : Event) (s : State) : (s.log e).held = s.held := rfl
@[simp] theorem State.log_trace (e : Event) (s : State) : (s.log e).trace = s.trace ++ [e] := rfl
@[simp] theorem State.log_owner (e : Event) (s : State) : (s.log e).owner = s.owner := rfl
@[simp] theorem State.log_replies (e : Event) (s : State) : (s.log e).replies = s.replies := rfl
@[simp] theorem State.log_agenda (e : Event) (s : State) : (s.log e).agenda = s.agenda := rfl
@[simp] theorem State.log_peer (e : Event) (s : State) : (s.log e).peer = s.peer := rfl
@[simp] theorem State.log_draws (e : Event) (s : State) : (s.log e).draws = s.draws := rfl
@[simp] theorem State.log_picks (e : Event) (s : State) : (s.log e).picks = s.picks := rfl
@[simp] theorem State.log_accepted (e : Event) (s : State) : (s.log e).accepted = s.accepted := rfl

@[simp] theorem State.dirOut_sclO (s : State) : (s.dirOut).sclO = s.sclO := rfl
@[simp] theorem State.dirOut_sdaO (s : State) : (s.dirOut).sdaO = s.sdaO := rfl
@[simp] theorem State.dirOut_sdaOe (s : State) : (s.dirOut).sdaOe = true := rfl
@[simp] theorem State.dirOut_busy (s : State) : (s.dirOut).busy = s.busy := rfl
@[simp] theorem State.dirOut_nack (s : State) : (s.dirOut).nack = s.nack := rfl
@[simp] theorem State.dirOut_illegal (s : State) : (s.dirOut).illegal = s.illegal := rfl
@[simp] theorem State.dirOut_rxbyte (s : State) : (s.dirOut).rxbyte = s.rxbyte := rfl
@[simp] theorem State.dirOut_cmdw (s : State) : (s.dirOut).cmdw = s.cmdw := rfl
@[simp] theorem State.dirOut_seq (s : State) : (s.dirOut).seq = s.seq := rfl
@[simp] theorem State.dirOut_sr (s : State) : (s.dirOut).sr = s.sr := rfl
@[simp] theorem State.dirOut_bitcnt (s : State) : (s.dirOut).bitcnt = s.bitcnt := rfl
@[simp] theorem State.dirOut_retry (s : State) : (s.dirOut).retry = s.retry := rfl
@[simp] theorem State.dirOut_dtimer (s : State) : (s.dirOut).dtimer = s.dtimer := rfl
@[simp] theorem State.dirOut_rst (s : State) : (s.dirOut).rst = s.rst := rfl
@[simp] theorem State.dirOut_held (s : State) : (s.dirOut).held = s.held := rfl
@[simp] theorem State.dirOut_trace (s : State) : (s.dirOut).trace = s.trace ++ [.dirOut] := rfl
@[simp] theorem State.dirOut_owner (s : State) : (s.dirOut).owner = s.owner := rfl
@[simp] theorem State.dirOut_replies (s : State) : (s.dirOut).replies = s.replies := rfl
@[simp] theorem State.dirOut_agenda (s : State) : (s.dirOut).agenda = s.agenda := rfl
@[simp] theorem State.dirOut_peer (s : State) : (s.dirOut).peer = s.peer := rfl
@[simp] theorem State.dirOut_draws (s : State) : (s.dirOut).draws = s.draws := rfl
@[simp] theorem State.dirOut_picks (s : State) : (s.dirOut).picks = s.picks := rfl
@[simp] theorem State.dirOut_accepted (s : State) : (s.dirOut).accepted = s.accepted := rfl

@[simp] theorem State.dirIn_sclO (s : State) : (s.dirIn).sclO = s.sclO := rfl
@[simp] theorem State.dirIn_sdaO (s : State) : (s.dirIn).sdaO = s.sdaO := rfl
@[simp] theorem State.dirIn_sdaOe (s : State) : (s.dirIn).sdaOe = false := rfl
@[simp] theorem State.dirIn_busy (s : State) : (s.dirIn).busy = s.busy := rfl
@[simp] theorem State.dirIn_nack (s : State) : (s.dirIn).nack = s.nack := rfl
@[simp] theorem State.dirIn_illegal (s : State) : (s.dirIn).illegal = s.illegal := rfl
@[simp] theorem State.dirIn_rxbyte (s : State) : (s.dirIn).rxbyte = s.rxbyte := rfl
@[simp] theorem State.dirIn_cmdw (s : State) : (s.dirIn).cmdw = s.cmdw := rfl
@[simp] theorem State.dirIn_seq (s : State) : (s.dirIn).seq = s.seq := rfl
@[simp] theorem State.dirIn_sr (s : State) : (s.dirIn).sr = s.sr := rfl
@[simp] theorem State.dirIn_bitcnt (s : State) : (s.dirIn).bitcnt = s.bitcnt := rfl
@[simp] theorem State.dirIn_retry (s : State) : (s.dirIn).retry = s.retry := rfl
@[simp] theorem State.dirIn_dtimer (s : State) : (s.dirIn).dtimer = s.dtimer := rfl
@[simp] theorem State.dirIn_rst (s : State) : (s.dirIn).rst = s.rst := rfl
@[simp] theorem State.dirIn_held (s : State) : (s.dirIn).held = s.held := rfl
@[simp] theorem State.dirIn_trace (s : State) : (s.dirIn).trace = s.trace ++ [.dirIn] := rfl
@[simp] theorem State.dirIn_owner (s : State) : (s.dirIn).owner = s.owner := rfl
@[simp] theorem State.dirIn_replies (s : State) : (s.dirIn).replies = s.replies := rfl
@[simp] theorem State.dirIn_agenda (s : State) : (s.dirIn).agenda = s.agenda := rfl
@[simp] theorem State.dirIn_peer (s : State) : (s.dirIn).peer = s.peer := rfl
@[simp] theorem State.dirIn_draws (s : State) : (s.dirIn).draws = s.draws := rfl
@[simp] theorem State.dirIn_picks (s : State) : (s.dirIn).picks = s.picks := rfl
@[simp] theorem State.dirIn_accepted (s : State) : (s.dirIn).accepted = s.accepted := rfl

@[simp] theorem State.setScl_sclO (v : Bool) (s : State) : (s.setScl v).sclO = v := rfl
@[simp] theorem State.setScl_sdaO (v : Bool) (s : State) : (s.setScl v).sdaO = s.sdaO := rfl
@[simp] theorem State.setScl_sdaOe (v : Bool) (s : State) : (s.setScl v).sdaOe = s.sdaOe := rfl
@[simp] theorem State.setScl_busy (v : Bool) (s : State) : (s.setScl v).busy = s.busy := rfl
@[simp] theorem State.setScl_nack (v : Bool) (s : State) : (s.setScl v).nack = s.nack := rfl
@[simp] theorem State.setScl_illegal (v : Bool) (s : State) : (s.setScl v).illegal = s.illegal := rfl
@[simp] theorem State.setScl_rxbyte (v : Bool) (s : State) : (s.setScl v).rxbyte = s.rxbyte := rfl
@[simp] theorem State.setScl_cmdw (v : Bool) (s : State) : (s.setScl v).cmdw = s.cmdw := rfl
@[simp] theorem State.setScl_seq (v : Bool) (s : State) : (s.setScl v).seq = s.seq := rfl
@[simp] theorem State.setScl_sr (v : Bool) (s : State) : (s.setScl v).sr = s.sr := rfl
@[simp] theorem State.setScl_bitcnt (v : Bool) (s : State) : (s.setScl v).bitcnt = s.bitcnt := rfl
@[simp] theorem State.setScl_retry (v : Bool) (s : State) : (s.setScl v).retry = s.retry := rfl
@[simp] theorem State.setScl_dtimer (v : Bool) (s : State) : (s.setScl v).dtimer = s.dtimer := rfl
@[simp] theorem State.setScl_rst (v : Bool) (s : State) : (s.setScl v).rst = s.rst := rfl
@[simp] theorem State.setScl_held (v : Bool) (s : State) : (s.setScl v).held = s.held := rfl
@[simp] theorem State.setScl_trace (v : Bool) (s : State) : (s.setScl v).trace = s.trace ++ [.set .scl v] := rfl
@[simp] theorem State.setScl_owner (v : Bool) (s : State) : (s.setScl v).owner = s.owner := rfl
@[simp] theorem State.setScl_replies (v : Bool) (s : State) : (s.setScl v).replies = s.replies := rfl
@[simp] theorem State.setScl_agenda (v : Bool) (s : State) : (s.setScl v).agenda = s.agenda := rfl
@[simp] theorem State.setScl_peer (v : Bool) (s : State) : (s.setScl v).peer = s.peer := rfl
@[simp] theorem State.setScl_draws (v : Bool) (s : State) : (s.setScl v).draws = s.draws := rfl
@[simp] theorem State.setScl_picks (v : Bool) (s : State) : (s.setScl v).picks = s.picks := rfl
@[simp] theorem State.setScl_accepted (v : Bool) (s : State) : (s.setScl v).accepted = s.accepted := rfl

@[simp] theorem State.setSda_sclO (v : Bool) (s : State) : (s.setSda v).sclO = s.sclO := rfl
@[simp] theorem State.setSda_sdaO (v : Bool) (s : State) : (s.setSda v).sdaO = v := rfl
@[simp] theorem State.setSda_sdaOe (v : Bool) (s : State) : (s.setSda v).sdaOe = s.sdaOe := rfl
@[simp] theorem State.setSda_busy (v : Bool) (s : State) : (s.setSda v).busy = s.busy := rfl
@[simp] theorem State.setSda_nack (v : Bool) (s : State) : (s.setSda v).nack = s.nack := rfl
@[simp] theorem State.setSda_illegal (v : Bool) (s : State) : (s.setSda v).illegal = s.illegal := rfl
@[simp] theorem State.setSda_rxbyte (v : Bool) (s : State) : (s.setSda v).rxbyte = s.rxbyte := rfl
@[simp] theorem State.setSda_cmdw (v : Bool) (s : State) : (s.setSda v).cmdw = s.cmdw := rfl
@[simp] theorem State.setSda_seq (v : Bool) (s : State) : (s.setSda v).seq = s.seq := rfl
@[simp] theorem State.setSda_sr (v : Bool) (s : State) : (s.setSda v).sr = s.sr := rfl
@[simp] theorem State.setSda_bitcnt (v : Bool) (s : State) : (s.setSda v).bitcnt = s.bitcnt := rfl
@[simp] theorem State.setSda_retry (v : Bool) (s : State) : (s.setSda v).retry = s.retry := rfl
@[simp] theorem State.setSda_dtimer (v : Bool) (s : State) : (s.setSda v).dtimer = s.dtimer := rfl
@[simp] theorem State.setSda_rst (v : Bool) (s : State) : (s.setSda v).rst = s.rst := rfl
@[simp] theorem State.setSda_held (v : Bool) (s : State) : (s.setSda v).held = s.held := rfl
@[simp] theorem State.setSda_trace (v : Bool) (s : State) : (s.setSda v).trace = s.trace ++ [.set .sda v] := rfl
@[simp] theorem State.setSda_owner (v : Bool) (s : State) : (s.setSda v).owner = s.owner := rfl
@[simp] theorem State.setSda_replies (v : Bool) (s : State) : (s.setSda v).replies = s.replies := rfl
@[simp] theorem State.setSda_agenda (v : Bool) (s : State) : (s.setSda v).agenda = s.agenda := rfl
@[simp] theorem State.setSda_peer (v : Bool) (s : State) : (s.setSda v).peer = s.peer := rfl
@[simp] theorem State.setSda_draws (v : Bool) (s : State) : (s.setSda v).draws = s.draws := rfl
@[simp] theorem State.setSda_picks (v : Bool) (s : State) : (s.setSda v).picks = s.picks := rfl
@[simp] theorem State.setSda_accepted (v : Bool) (s : State) : (s.setSda v).accepted = s.accepted := rfl

@[simp] theorem State.delay_sclO (n : Nat) (s : State) : (s.delay n).sclO = s.sclO := rfl
@[simp] theorem State.delay_sdaO (n : Nat) (s : State) : (s.delay n).sdaO = s.sdaO := rfl
@[simp] theorem State.delay_sdaOe (n : Nat) (s : State) : (s.delay n).sdaOe = s.sdaOe := rfl
@[simp] theorem State.delay_busy (n : Nat) (s : State) : (s.delay n).busy = s.busy := rfl
@[simp] theorem State.delay_nack (n : Nat) (s : State) : (s.delay n).nack = s.nack := rfl
@[simp] theorem State.delay_illegal (n : Nat) (s : State) : (s.delay n).illegal = s.illegal := rfl
@[simp] theorem State.delay_rxbyte (n : Nat) (s : State) : (s.delay n).rxbyte = s.rxbyte := rfl
@[simp] theorem State.delay_cmdw (n : Nat) (s : State) : (s.delay n).cmdw = s.cmdw := rfl
@[simp] theorem State.delay_seq (n : Nat) (s : State) : (s.delay n).seq = s.seq := rfl
@[simp] theorem State.delay_sr (n : Nat) (s : State) : (s.delay n).sr = s.sr := rfl
@[simp] theorem State.delay_bitcnt (n : Nat) (s : State) : (s.delay n).bitcnt = s.bitcnt := rfl
@[simp] theorem State.delay_retry (n : Nat) (s : State) : (s.delay n).retry = s.retry := rfl
@[simp] theorem State.delay_dtimer (n : Nat) (s : State) : (s.delay n).dtimer = 0 := rfl
@[simp] theorem State.delay_rst (n : Nat) (s : State) : (s.delay n).rst = s.rst := rfl
@[simp] theorem State.delay_held (n : Nat) (s : State) : (s.delay n).held = s.held := rfl
@[simp] theorem State.delay_trace (n : Nat) (s : State) : (s.delay n).trace = s.trace ++ [.delay n] := rfl
@[simp] theorem State.delay_owner (n : Nat) (s : State) : (s.delay n).owner = s.owner := rfl
@[simp] theorem State.delay_replies (n : Nat) (s : State) : (s.delay n).replies = s.replies := rfl
@[simp] theorem State.delay_agenda (n : Nat) (s : State) : (s.delay n).agenda = s.agenda := rfl
@[simp] theorem State.delay_peer (n : Nat) (s : State) : (s.delay n).peer = s.peer := rfl
@[simp] theorem State.delay_draws (n : Nat) (s : State) : (s.delay n).draws = s.draws := rfl
@[simp] theorem State.delay_picks (n : Nat) (s : State) : (s.delay n).picks = s.picks := rfl
@[simp] theorem State.delay_accepted (n : Nat) (s : State) : (s.delay n).accepted = s.accepted := rfl

@[simp] theorem State.takeDraw_sclO (s : State) : (s.takeDraw).sclO = s.sclO := rfl
@[simp] theorem State.takeDraw_sdaO (s : State) : (s.takeDraw).sdaO = s.sdaO := rfl
@[simp] theorem State.takeDraw_sdaOe (s : State) : (s.takeDraw).sdaOe = s.sdaOe := rfl
@[simp] theorem State.takeDraw_busy (s : State) : (s.takeDraw).busy = s.busy := rfl
@[simp] theorem State.takeDraw_nack (s : State) : (s.takeDraw).nack = s.nack := rfl
@[simp] theorem State.takeDraw_illegal (s : State) : (s.takeDraw).illegal = s.illegal := rfl
@[simp] theorem State.takeDraw_rxbyte (s : State) : (s.takeDraw).rxbyte = s.rxbyte := rfl
@[simp] theorem State.takeDraw_cmdw (s : State) : (s.takeDraw).cmdw = s.cmdw := rfl
@[simp] theorem State.takeDraw_seq (s : State) : (s.takeDraw).seq = s.seq := rfl
@[simp] theorem State.takeDraw_sr (s : State) : (s.takeDraw).sr = s.sr := rfl
@[simp] theorem State.takeDraw_bitcnt (s : State) : (s.takeDraw).bitcnt = s.bitcnt := rfl
@[simp] theorem State.takeDraw_retry (s : State) : (s.takeDraw).retry = s.retry := rfl
@[simp] theorem State.takeDraw_dtimer (s : State) : (s.takeDraw).dtimer = s.dtimer := rfl
@[simp] theorem State.takeDraw_rst (s : State) : (s.takeDraw).rst = s.rst := rfl
@[simp] theorem State.takeDraw_held (s : State) : (s.takeDraw).held = s.held := rfl
@[simp] theorem State.takeDraw_trace (s : State) : (s.takeDraw).trace = s.trace := rfl
@[simp] theorem State.takeDraw_owner (s : State) : (s.takeDraw).owner = s.owner := rfl
@[simp] theorem State.takeDraw_replies (s : State) : (s.takeDraw).replies = s.replies := rfl
@[simp] theorem State.takeDraw_agenda (s : State) : (s.takeDraw).agenda = s.agenda := rfl
@[simp] theorem State.takeDraw_peer (s : State) : (s.takeDraw).peer = s.peer.drop 1 := rfl
@[simp] theorem State.takeDraw_draws (s : State) : (s.takeDraw).draws = s.draws + 1 := rfl
@[simp] theorem State.takeDraw_picks (s : State) : (s.takeDraw).picks = s.picks := rfl
@[simp] theorem State.takeDraw_accepted (s : State) : (s.takeDraw).accepted = s.accepted := rfl

@[simp] theorem State.loadShifter_sclO (b : Byte) (s : State) : (s.loadShifter b).sclO = s.sclO := rfl
@[simp] theorem State.loadShifter_sdaO (b : Byte) (s : State) : (s.loadShifter b).sdaO = s.sdaO := rfl
@[simp] theorem State.loadShifter_sdaOe (b : Byte) (s : State) : (s.loadShifter b).sdaOe = s.sdaOe := rfl
@[simp] theorem State.loadShifter_busy (b : Byte) (s : State) : (s.loadShifter b).busy = s.busy := rfl
@[simp] theorem State.loadShifter_nack (b : Byte) (s : State) : (s.loadShifter b).nack = s.nack := rfl
@[simp] theorem State.loadShifter_illegal (b : Byte) (s : State) : (s.loadShifter b).illegal = s.illegal := rfl
@[simp] theorem State.loadShifter_rxbyte (b : Byte) (s : State) : (s.loadShifter b).rxbyte = s.rxbyte := rfl
@[simp] theorem State.loadShifter_cmdw (b : Byte) (s : State) : (s.loadShifter b).cmdw = s.cmdw := rfl
@[simp] theorem State.loadShifter_seq (b : Byte) (s : State) : (s.loadShifter b).seq = s.seq := rfl
@[simp] theorem State.loadShifter_sr (b : Byte) (s : State) : (s.loadShifter b).sr = b := rfl
@[simp] theorem State.loadShifter_bitcnt (b : Byte) (s : State) : (s.loadShifter b).bitcnt = 0#4 := rfl
@[simp] theorem State.loadShifter_retry (b : Byte) (s : State) : (s.loadShifter b).retry = s.retry := rfl
@[simp] theorem State.loadShifter_dtimer (b : Byte) (s : State) : (s.loadShifter b).dtimer = s.dtimer := rfl
@[simp] theorem State.loadShifter_rst (b : Byte) (s : State) : (s.loadShifter b).rst = s.rst := rfl
@[simp] theorem State.loadShifter_held (b : Byte) (s : State) : (s.loadShifter b).held = s.held := rfl
@[simp] theorem State.loadShifter_trace (b : Byte) (s : State) : (s.loadShifter b).trace = s.trace := rfl
@[simp] theorem State.loadShifter_owner (b : Byte) (s : State) : (s.loadShifter b).owner = s.owner := rfl
@[simp] theorem State.loadShifter_replies (b : Byte) (s : State) : (s.loadShifter b).replies = s.replies := rfl
@[simp] theorem State.loadShifter_agenda (b : Byte) (s : State) : (s.loadShifter b).agenda = s.agenda := rfl
@[simp] theorem State.loadShifter_peer (b : Byte) (s : State) : (s.loadShifter b).peer = s.peer := rfl
@[simp] theorem State.loadShifter_draws (b : Byte) (s : State) : (s.loadShifter b).draws = s.draws := rfl
@[simp] theorem State.loadShifter_picks (b : Byte) (s : State) : (s.loadShifter b).picks = s.picks := rfl
@[simp] theorem State.loadShifter_accepted (b : Byte) (s : State) : (s.loadShifter b).accepted = s.accepted := rfl

@[simp] theorem State.shiftOneOut_sclO (s : State) : (s.shiftOneOut).sclO = s.sclO := rfl
@[simp] theorem State.shiftOneOut_sdaO (s : State) : (s.shiftOneOut).sdaO = s.sdaO := rfl
@[simp] theorem State.shiftOneOut_sdaOe (s : State) : (s.shiftOneOut).sdaOe = s.sdaOe := rfl
@[simp] theorem State.shiftOneOut_busy (s : State) : (s.shiftOneOut).busy = s.busy := rfl
@[simp] theorem State.shiftOneOut_nack (s : State) : (s.shiftOneOut).nack = s.nack := rfl
@[simp] theorem State.shiftOneOut_illegal (s : State) : (s.shiftOneOut).illegal = s.illegal := rfl
@[simp] theorem State.shiftOneOut_rxbyte (s : State) : (s.shiftOneOut).rxbyte = s.rxbyte := rfl
@[simp] theorem State.shiftOneOut_cmdw (s : State) : (s.shiftOneOut).cmdw = s.cmdw := rfl
@[simp] theorem State.shiftOneOut_seq (s : State) : (s.shiftOneOut).seq = s.seq := rfl
@[simp] theorem State.shiftOneOut_sr (s : State) : (s.shiftOneOut).sr = shiftOut s.sr := rfl
@[simp] theorem State.shiftOneOut_bitcnt (s : State) : (s.shiftOneOut).bitcnt = s.bitcnt + 1#4 := rfl
@[simp] theorem State.shiftOneOut_retry (s : State) : (s.shiftOneOut).retry = s.retry := rfl
@[simp] theorem State.shiftOneOut_dtimer (s : State) : (s.shiftOneOut).dtimer = s.dtimer := rfl
@[simp] theorem State.shiftOneOut_rst (s : State) : (s.shiftOneOut).rst = s.rst := rfl
@[simp] theorem State.shiftOneOut_held (s : State) : (s.shiftOneOut).held = s.held := rfl
@[simp] theorem State.shiftOneOut_trace (s : State) : (s.shiftOneOut).trace = s.trace := rfl
@[simp] theorem State.shiftOneOut_owner (s : State) : (s.shiftOneOut).owner = s.owner := rfl
@[simp] theorem State.shiftOneOut_replies (s : State) : (s.shiftOneOut).replies = s.replies := rfl
@[simp] theorem State.shiftOneOut_agenda (s : State) : (s.shiftOneOut).agenda = s.agenda := rfl
@[simp] theorem State.shiftOneOut_peer (s : State) : (s.shiftOneOut).peer = s.peer := rfl
@[simp] theorem State.shiftOneOut_draws (s : State) : (s.shiftOneOut).draws = s.draws := rfl
@[simp] theorem State.shiftOneOut_picks (s : State) : (s.shiftOneOut).picks = s.picks := rfl
@[simp] theorem State.shiftOneOut_accepted (s : State) : (s.shiftOneOut).accepted = s.accepted := rfl

@[simp] theorem State.shiftOneIn_sclO (b : Bool) (s : State) : (s.shiftOneIn b).sclO = s.sclO := rfl
@[simp] theorem State.shiftOneIn_sdaO (b : Bool) (s : State) : (s.shiftOneIn b).sdaO = s.sdaO := rfl
@[simp] theorem State.shiftOneIn_sdaOe (b : Bool) (s : State) : (s.shiftOneIn b).sdaOe = s.sdaOe := rfl
@[simp] theorem State.shiftOneIn_busy (b : Bool) (s : State) : (s.shiftOneIn b).busy = s.busy := rfl
@[simp] theorem State.shiftOneIn_nack (b : Bool) (s : State) : (s.shiftOneIn b).nack = s.nack := rfl
@[simp] theorem State.shiftOneIn_illegal (b : Bool) (s : State) : (s.shiftOneIn b).illegal = s.illegal := rfl
@[simp] theorem State.shiftOneIn_rxbyte (b : Bool) (s : State) : (s.shiftOneIn b).rxbyte = s.rxbyte := rfl
@[simp] theorem State.shiftOneIn_cmdw (b : Bool) (s : State) : (s.shiftOneIn b).cmdw = s.cmdw := rfl
@[simp] theorem State.shiftOneIn_seq (b : Bool) (s : State) : (s.shiftOneIn b).seq = s.seq := rfl
@[simp] theorem State.shiftOneIn_sr (b : Bool) (s : State) : (s.shiftOneIn b).sr = shiftIn s.sr b := rfl
@[simp] theorem State.shiftOneIn_bitcnt (b : Bool) (s : State) : (s.shiftOneIn b).bitcnt = s.bitcnt + 1#4 := rfl
@[simp] theorem State.shiftOneIn_retry (b : Bool) (s : State) : (s.shiftOneIn b).retry = s.retry := rfl
@[simp] theorem State.shiftOneIn_dtimer (b : Bool) (s : State) : (s.shiftOneIn b).dtimer = s.dtimer := rfl
@[simp] theorem State.shiftOneIn_rst (b : Bool) (s : State) : (s.shiftOneIn b).rst = s.rst := rfl
@[simp] theorem State.shiftOneIn_held (b : Bool) (s : State) : (s.shiftOneIn b).held = s.held := rfl
@[simp] theorem State.shiftOneIn_trace (b : Bool) (s : State) : (s.shiftOneIn b).trace = s.trace := rfl
@[simp] theorem State.shiftOneIn_owner (b : Bool) (s : State) : (s.shiftOneIn b).owner = s.owner := rfl
@[simp] theorem State.shiftOneIn_replies (b : Bool) (s : State) : (s.shiftOneIn b).replies = s.replies := rfl
@[simp] theorem State.shiftOneIn_agenda (b : Bool) (s : State) : (s.shiftOneIn b).agenda = s.agenda := rfl
@[simp] theorem State.shiftOneIn_peer (b : Bool) (s : State) : (s.shiftOneIn b).peer = s.peer := rfl
@[simp] theorem State.shiftOneIn_draws (b : Bool) (s : State) : (s.shiftOneIn b).draws = s.draws := rfl
@[simp] theorem State.shiftOneIn_picks (b : Bool) (s : State) : (s.shiftOneIn b).picks = s.picks := rfl
@[simp] theorem State.shiftOneIn_accepted (b : Bool) (s : State) : (s.shiftOneIn b).accepted = s.accepted := rfl

@[simp] theorem State.armRetry_sclO (s : State) : (s.armRetry).sclO = s.sclO := rfl
@[simp] theorem State.armRetry_sdaO (s : State) : (s.armRetry).sdaO = s.sdaO := rfl
@[simp] theorem State.armRetry_sdaOe (s : State) : (s.armRetry).sdaOe = s.sdaOe := rfl
@[simp] theorem State.armRetry_busy (s : State) : (s.armRetry).busy = s.busy := rfl
@[simp] theorem State.armRetry_nack (s : State) : (s.armRetry).nack = s.nack := rfl
@[simp] theorem State.armRetry_illegal (s : State) : (s.armRetry).illegal = s.illegal := rfl
@[simp] theorem State.armRetry_rxbyte (s : State) : (s.armRetry).rxbyte = s.rxbyte := rfl
@[simp] theorem State.armRetry_cmdw (s : State) : (s.armRetry).cmdw = s.cmdw := rfl
@[simp] theorem State.armRetry_seq (s : State) : (s.armRetry).seq = s.seq := rfl
@[simp] theorem State.armRetry_sr (s : State) : (s.armRetry).sr = s.sr := rfl
@[simp] theorem State.armRetry_bitcnt (s : State) : (s.armRetry).bitcnt = s.bitcnt := rfl
@[simp] theorem State.armRetry_retry (s : State) : (s.armRetry).retry = 0 := rfl
@[simp] theorem State.armRetry_dtimer (s : State) : (s.armRetry).dtimer = s.dtimer := rfl
@[simp] theorem State.armRetry_rst (s : State) : (s.armRetry).rst = s.rst := rfl
@[simp] theorem State.armRetry_held (s : State) : (s.armRetry).held = s.held := rfl
@[simp] theorem State.armRetry_trace (s : State) : (s.armRetry).trace = s.trace := rfl
@[simp] theorem State.armRetry_owner (s : State) : (s.armRetry).owner = s.owner := rfl
@[simp] theorem State.armRetry_replies (s : State) : (s.armRetry).replies = s.replies := rfl
@[simp] theorem State.armRetry_agenda (s : State) : (s.armRetry).agenda = s.agenda := rfl
@[simp] theorem State.armRetry_peer (s : State) : (s.armRetry).peer = s.peer := rfl
@[simp] theorem State.armRetry_draws (s : State) : (s.armRetry).draws = s.draws := rfl
@[simp] theorem State.armRetry_picks (s : State) : (s.armRetry).picks = s.picks := rfl
@[simp] theorem State.armRetry_accepted (s : State) : (s.armRetry).accepted = s.accepted := rfl

@[simp] theorem State.writeIllegal_sclO (v : Bool) (s : State) : (s.writeIllegal v).sclO = s.sclO := rfl
@[simp] theorem State.writeIllegal_sdaO (v : Bool) (s : State) : (s.writeIllegal v).sdaO = s.sdaO := rfl
@[simp] theorem State.writeIllegal_sdaOe (v : Bool) (s : State) : (s.writeIllegal v).sdaOe = s.sdaOe := rfl
@[simp] theorem State.writeIllegal_busy (v : Bool) (s : State) : (s.writeIllegal v).busy = s.busy := rfl
@[simp] theorem State.writeIllegal_nack (v : Bool) (s : State) : (s.writeIllegal v).nack = s.nack := rfl
@[simp] theorem State.writeIllegal_illegal (v : Bool) (s : State) : (s.writeIllegal v).illegal = v := rfl
@[simp] theorem State.writeIllegal_rxbyte (v : Bool) (s : State) : (s.writeIllegal v).rxbyte = s.rxbyte := rfl
@[simp] theorem State.writeIllegal_cmdw (v : Bool) (s : State) : (s.writeIllegal v).cmdw = s.cmdw := rfl
@[simp] theorem State.writeIllegal_seq (v : Bool) (s : State) : (s.writeIllegal v).seq = s.seq := rfl
@[simp] theorem State.writeIllegal_sr (v : Bool) (s : State) : (s.writeIllegal v).sr = s.sr := rfl
@[simp] theorem State.writeIllegal_bitcnt (v : Bool) (s : State) : (s.writeIllegal v).bitcnt = s.bitcnt := rfl
@[simp] theorem State.writeIllegal_retry (v : Bool) (s : State) : (s.writeIllegal v).retry = s.retry := rfl
@[simp] theorem State.writeIllegal_dtimer (v : Bool) (s : State) : (s.writeIllegal v).dtimer = s.dtimer := rfl
@[simp] theorem State.writeIllegal_rst (v : Bool) (s : State) : (s.writeIllegal v).rst = s.rst := rfl
@[simp] theorem State.writeIllegal_held (v : Bool) (s : State) : (s.writeIllegal v).held = s.held := rfl
@[simp] theorem State.writeIllegal_trace (v : Bool) (s : State) : (s.writeIllegal v).trace = s.trace := rfl
@[simp] theorem State.writeIllegal_owner (v : Bool) (s : State) : (s.writeIllegal v).owner = s.owner := rfl
@[simp] theorem State.writeIllegal_replies (v : Bool) (s : State) : (s.writeIllegal v).replies = s.replies := rfl
@[simp] theorem State.writeIllegal_agenda (v : Bool) (s : State) : (s.writeIllegal v).agenda = s.agenda := rfl
@[simp] theorem State.writeIllegal_peer (v : Bool) (s : State) : (s.writeIllegal v).peer = s.peer := rfl
@[simp] theorem State.writeIllegal_draws (v : Bool) (s : State) : (s.writeIllegal v).draws = s.draws := rfl
@[simp] theorem State.writeIllegal_picks (v : Bool) (s : State) : (s.writeIllegal v).picks = s.picks := rfl
@[simp] theorem State.writeIllegal_accepted (v : Bool) (s : State) : (s.writeIllegal v).accepted = s.accepted := rfl

@[simp] theorem State.acceptWord_sclO (v : Bool) (s : State) : (s.acceptWord v).sclO = s.sclO := rfl
@[simp] theorem State.acceptWord_sdaO (v : Bool) (s : State) : (s.acceptWord v).sdaO = s.sdaO := rfl
@[simp] theorem State.acceptWord_sdaOe (v : Bool) (s : State) : (s.acceptWord v).sdaOe = s.sdaOe := rfl
@[simp] theorem State.acceptWord_busy (v : Bool) (s : State) : (s.acceptWord v).busy = s.busy := rfl
@[simp] theorem State.acceptWord_nack (v : Bool) (s : State) : (s.acceptWord v).nack = s.nack := rfl
@[simp] theorem State.acceptWord_illegal (v : Bool) (s : State) : (s.acceptWord v).illegal = v := rfl
@[simp] theorem State.acceptWord_rxbyte (v : Bool) (s : State) : (s.acceptWord v).rxbyte = s.rxbyte := rfl
@[simp] theorem State.acceptWord_cmdw (v : Bool) (s : State) : (s.acceptWord v).cmdw = s.cmdw := rfl
@[simp] theorem State.acceptWord_seq (v : Bool) (s : State) : (s.acceptWord v).seq = s.seq := rfl
@[simp] theorem State.acceptWord_sr (v : Bool) (s : State) : (s.acceptWord v).sr = s.sr := rfl
@[simp] theorem State.acceptWord_bitcnt (v : Bool) (s : State) : (s.acceptWord v).bitcnt = s.bitcnt := rfl
@[simp] theorem State.acceptWord_retry (v : Bool) (s : State) : (s.acceptWord v).retry = s.retry := rfl
@[simp] theorem State.acceptWord_dtimer (v : Bool) (s : State) : (s.acceptWord v).dtimer = s.dtimer := rfl
@[simp] theorem State.acceptWord_rst (v : Bool) (s : State) : (s.acceptWord v).rst = s.rst := rfl
@[simp] theorem State.acceptWord_held (v : Bool) (s : State) : (s.acceptWord v).held = s.held := rfl
@[simp] theorem State.acceptWord_trace (v : Bool) (s : State) : (s.acceptWord v).trace = s.trace := rfl
@[simp] theorem State.acceptWord_owner (v : Bool) (s : State) : (s.acceptWord v).owner = s.owner := rfl
@[simp] theorem State.acceptWord_replies (v : Bool) (s : State) : (s.acceptWord v).replies = s.replies := rfl
@[simp] theorem State.acceptWord_agenda (v : Bool) (s : State) : (s.acceptWord v).agenda = s.agenda := rfl
@[simp] theorem State.acceptWord_peer (v : Bool) (s : State) : (s.acceptWord v).peer = s.peer := rfl
@[simp] theorem State.acceptWord_draws (v : Bool) (s : State) : (s.acceptWord v).draws = s.draws := rfl
@[simp] theorem State.acceptWord_picks (v : Bool) (s : State) : (s.acceptWord v).picks = s.picks := rfl
@[simp] theorem State.acceptWord_accepted (v : Bool) (s : State) : (s.acceptWord v).accepted = s.accepted + 1 := rfl

@[simp] theorem State.accept_sclO (i : Instr) (s : State) : (s.accept i).sclO = s.sclO := rfl
@[simp] theorem State.accept_sdaO (i : Instr) (s : State) : (s.accept i).sdaO = s.sdaO := rfl
@[simp] theorem State.accept_sdaOe (i : Instr) (s : State) : (s.accept i).sdaOe = s.sdaOe := rfl
@[simp] theorem State.accept_busy (i : Instr) (s : State) : (s.accept i).busy = true := rfl
@[simp] theorem State.accept_nack (i : Instr) (s : State) : (s.accept i).nack = s.nack := rfl
@[simp] theorem State.accept_illegal (i : Instr) (s : State) : (s.accept i).illegal = false := rfl
@[simp] theorem State.accept_rxbyte (i : Instr) (s : State) : (s.accept i).rxbyte = s.rxbyte := rfl
@[simp] theorem State.accept_cmdw (i : Instr) (s : State) : (s.accept i).cmdw = s.cmdw := rfl
@[simp] theorem State.accept_seq (i : Instr) (s : State) : (s.accept i).seq = .run i 0 .main := rfl
@[simp] theorem State.accept_sr (i : Instr) (s : State) : (s.accept i).sr = s.sr := rfl
@[simp] theorem State.accept_bitcnt (i : Instr) (s : State) : (s.accept i).bitcnt = s.bitcnt := rfl
@[simp] theorem State.accept_retry (i : Instr) (s : State) : (s.accept i).retry = s.retry := rfl
@[simp] theorem State.accept_dtimer (i : Instr) (s : State) : (s.accept i).dtimer = s.dtimer := rfl
@[simp] theorem State.accept_rst (i : Instr) (s : State) : (s.accept i).rst = s.rst := rfl
@[simp] theorem State.accept_held (i : Instr) (s : State) : (s.accept i).held = s.held := rfl
@[simp] theorem State.accept_trace (i : Instr) (s : State) : (s.accept i).trace = s.trace := rfl
@[simp] theorem State.accept_owner (i : Instr) (s : State) : (s.accept i).owner = s.owner := rfl
@[simp] theorem State.accept_replies (i : Instr) (s : State) : (s.accept i).replies = s.replies := rfl
@[simp] theorem State.accept_agenda (i : Instr) (s : State) : (s.accept i).agenda = s.agenda := rfl
@[simp] theorem State.accept_peer (i : Instr) (s : State) : (s.accept i).peer = s.peer := rfl
@[simp] theorem State.accept_draws (i : Instr) (s : State) : (s.accept i).draws = s.draws := rfl
@[simp] theorem State.accept_picks (i : Instr) (s : State) : (s.accept i).picks = s.picks := rfl
@[simp] theorem State.accept_accepted (i : Instr) (s : State) : (s.accept i).accepted = s.accepted + 1 := rfl

@[simp] theorem State.latch_sclO (x : PortWrite) (s : State) : (s.latch x).sclO = s.sclO := rfl
@[simp] theorem State.latch_sdaO (x : PortWrite) (s : State) : (s.latch x).sdaO = s.sdaO := rfl
@[simp] theorem State.latch_sdaOe (x : PortWrite) (s : State) : (s.latch x).sdaOe = s.sdaOe := rfl
@[simp] theorem State.latch_busy (x : PortWrite) (s : State) : (s.latch x).busy = s.busy := rfl
@[simp] theorem State.latch_nack (x : PortWrite) (s : State) : (s.latch x).nack = s.nack := rfl
@[simp] theorem State.latch_illegal (x : PortWrite) (s : State) : (s.latch x).illegal = s.illegal := rfl
@[simp] theorem State.latch_rxbyte (x : PortWrite) (s : State) : (s.latch x).rxbyte = s.rxbyte := rfl
@[simp] theorem State.latch_cmdw (x : PortWrite) (s : State) : (s.latch x).cmdw = x.word := rfl
@[simp] theorem State.latch_seq (x : PortWrite) (s : State) : (s.latch x).seq = s.seq := rfl
@[simp] theorem State.latch_sr (x : PortWrite) (s : State) : (s.latch x).sr = s.sr := rfl
@[simp] theorem State.latch_bitcnt (x : PortWrite) (s : State) : (s.latch x).bitcnt = s.bitcnt := rfl
@[simp] theorem State.latch_retry (x : PortWrite) (s : State) : (s.latch x).retry = s.retry := rfl
@[simp] theorem State.latch_dtimer (x : PortWrite) (s : State) : (s.latch x).dtimer = s.dtimer := rfl
@[simp] theorem State.latch_rst (x : PortWrite) (s : State) : (s.latch x).rst = s.rst := rfl
@[simp] theorem State.latch_held (x : PortWrite) (s : State) : (s.latch x).held = s.held := rfl
@[simp] theorem State.latch_trace (x : PortWrite) (s : State) : (s.latch x).trace = s.trace := rfl
@[simp] theorem State.latch_owner (x : PortWrite) (s : State) : (s.latch x).owner = x.agent := rfl
@[simp] theorem State.latch_replies (x : PortWrite) (s : State) : (s.latch x).replies = s.replies := rfl
@[simp] theorem State.latch_agenda (x : PortWrite) (s : State) : (s.latch x).agenda = s.agenda := rfl
@[simp] theorem State.latch_peer (x : PortWrite) (s : State) : (s.latch x).peer = s.peer := rfl
@[simp] theorem State.latch_draws (x : PortWrite) (s : State) : (s.latch x).draws = s.draws := rfl
@[simp] theorem State.latch_picks (x : PortWrite) (s : State) : (s.latch x).picks = s.picks := rfl
@[simp] theorem State.latch_accepted (x : PortWrite) (s : State) : (s.latch x).accepted = s.accepted := rfl

@[simp] theorem State.replyDone_sclO (s : State) : (s.replyDone).sclO = s.sclO := rfl
@[simp] theorem State.replyDone_sdaO (s : State) : (s.replyDone).sdaO = s.sdaO := rfl
@[simp] theorem State.replyDone_sdaOe (s : State) : (s.replyDone).sdaOe = s.sdaOe := rfl
@[simp] theorem State.replyDone_busy (s : State) : (s.replyDone).busy = s.busy := rfl
@[simp] theorem State.replyDone_nack (s : State) : (s.replyDone).nack = s.nack := rfl
@[simp] theorem State.replyDone_illegal (s : State) : (s.replyDone).illegal = s.illegal := rfl
@[simp] theorem State.replyDone_rxbyte (s : State) : (s.replyDone).rxbyte = s.rxbyte := rfl
@[simp] theorem State.replyDone_cmdw (s : State) : (s.replyDone).cmdw = s.cmdw := rfl
@[simp] theorem State.replyDone_seq (s : State) : (s.replyDone).seq = s.seq := rfl
@[simp] theorem State.replyDone_sr (s : State) : (s.replyDone).sr = s.sr := rfl
@[simp] theorem State.replyDone_bitcnt (s : State) : (s.replyDone).bitcnt = s.bitcnt := rfl
@[simp] theorem State.replyDone_retry (s : State) : (s.replyDone).retry = s.retry := rfl
@[simp] theorem State.replyDone_dtimer (s : State) : (s.replyDone).dtimer = s.dtimer := rfl
@[simp] theorem State.replyDone_rst (s : State) : (s.replyDone).rst = s.rst := rfl
@[simp] theorem State.replyDone_held (s : State) : (s.replyDone).held = s.held := rfl
@[simp] theorem State.replyDone_trace (s : State) : (s.replyDone).trace = s.trace := rfl
@[simp] theorem State.replyDone_owner (s : State) : (s.replyDone).owner = s.owner := rfl
@[simp] theorem State.replyDone_replies (s : State) : (s.replyDone).replies = s.replies ++ [.done s.owner] := rfl
@[simp] theorem State.replyDone_agenda (s : State) : (s.replyDone).agenda = s.agenda := rfl
@[simp] theorem State.replyDone_peer (s : State) : (s.replyDone).peer = s.peer := rfl
@[simp] theorem State.replyDone_draws (s : State) : (s.replyDone).draws = s.draws := rfl
@[simp] theorem State.replyDone_picks (s : State) : (s.replyDone).picks = s.picks := rfl
@[simp] theorem State.replyDone_accepted (s : State) : (s.replyDone).accepted = s.accepted := rfl

@[simp] theorem State.rejectWord_sclO (s : State) : (s.rejectWord).sclO = s.sclO := rfl
@[simp] theorem State.rejectWord_sdaO (s : State) : (s.rejectWord).sdaO = s.sdaO := rfl
@[simp] theorem State.rejectWord_sdaOe (s : State) : (s.rejectWord).sdaOe = s.sdaOe := rfl
@[simp] theorem State.rejectWord_busy (s : State) : (s.rejectWord).busy = s.busy := rfl
@[simp] theorem State.rejectWord_nack (s : State) : (s.rejectWord).nack = s.nack := rfl
@[simp] theorem State.rejectWord_illegal (s : State) : (s.rejectWord).illegal = true := rfl
@[simp] theorem State.rejectWord_rxbyte (s : State) : (s.rejectWord).rxbyte = s.rxbyte := rfl
@[simp] theorem State.rejectWord_cmdw (s : State) : (s.rejectWord).cmdw = s.cmdw := rfl
@[simp] theorem State.rejectWord_seq (s : State) : (s.rejectWord).seq = s.seq := rfl
@[simp] theorem State.rejectWord_sr (s : State) : (s.rejectWord).sr = s.sr := rfl
@[simp] theorem State.rejectWord_bitcnt (s : State) : (s.rejectWord).bitcnt = s.bitcnt := rfl
@[simp] theorem State.rejectWord_retry (s : State) : (s.rejectWord).retry = s.retry := rfl
@[simp] theorem State.rejectWord_dtimer (s : State) : (s.rejectWord).dtimer = s.dtimer := rfl
@[simp] theorem State.rejectWord_rst (s : State) : (s.rejectWord).rst = s.rst := rfl
@[simp] theorem State.rejectWord_held (s : State) : (s.rejectWord).held = s.held := rfl
@[simp] theorem State.rejectWord_trace (s : State) : (s.rejectWord).trace = s.trace := rfl
@[simp] theorem State.rejectWord_owner (s : State) : (s.rejectWord).owner = s.owner := rfl
@[simp] theorem State.rejectWord_replies (s : State) : (s.rejectWord).replies = s.replies ++ [.done s.owner] := rfl
@[simp] theorem State.rejectWord_agenda (s : State) : (s.rejectWord).agenda = s.agenda := rfl
@[simp] theorem State.rejectWord_peer (s : State) : (s.rejectWord).peer = s.peer := rfl
@[simp] theorem State.rejectWord_draws (s : State) : (s.rejectWord).draws = s.draws := rfl
@[simp] theorem State.rejectWord_picks (s : State) : (s.rejectWord).picks = s.picks := rfl
@[simp] theorem State.rejectWord_accepted (s : State) : (s.rejectWord).accepted = s.accepted + 1 := rfl

@[simp] theorem State.takeReset_sclO (s : State) : (s.takeReset).sclO = true := rfl
@[simp] theorem State.takeReset_sdaO (s : State) : (s.takeReset).sdaO = true := rfl
@[simp] theorem State.takeReset_sdaOe (s : State) : (s.takeReset).sdaOe = true := rfl
@[simp] theorem State.takeReset_busy (s : State) : (s.takeReset).busy = false := rfl
@[simp] theorem State.takeReset_nack (s : State) : (s.takeReset).nack = false := rfl
@[simp] theorem State.takeReset_illegal (s : State) : (s.takeReset).illegal = false := rfl
@[simp] theorem State.takeReset_rxbyte (s : State) : (s.takeReset).rxbyte = 0x00#8 := rfl
@[simp] theorem State.takeReset_cmdw (s : State) : (s.takeReset).cmdw = 0x0000#16 := rfl
@[simp] theorem State.takeReset_seq (s : State) : (s.takeReset).seq = .idle := rfl
@[simp] theorem State.takeReset_sr (s : State) : (s.takeReset).sr = 0x00#8 := rfl
@[simp] theorem State.takeReset_bitcnt (s : State) : (s.takeReset).bitcnt = 0#4 := rfl
@[simp] theorem State.takeReset_retry (s : State) : (s.takeReset).retry = 0 := rfl
@[simp] theorem State.takeReset_dtimer (s : State) : (s.takeReset).dtimer = 0 := rfl
@[simp] theorem State.takeReset_rst (s : State) : (s.takeReset).rst = true := rfl
@[simp] theorem State.takeReset_held (s : State) : (s.takeReset).held = [] := rfl
@[simp] theorem State.takeReset_trace (s : State) : (s.takeReset).trace = s.trace ++ [.reset] := rfl
@[simp] theorem State.takeReset_owner (s : State) : (s.takeReset).owner = s.owner := rfl
@[simp] theorem State.takeReset_replies (s : State) : (s.takeReset).replies = s.replies ++ s.droppedReplies := rfl
@[simp] theorem State.takeReset_agenda (s : State) : (s.takeReset).agenda = s.agenda := rfl
@[simp] theorem State.takeReset_peer (s : State) : (s.takeReset).peer = s.peer := rfl
@[simp] theorem State.takeReset_draws (s : State) : (s.takeReset).draws = s.draws := rfl
@[simp] theorem State.takeReset_picks (s : State) : (s.takeReset).picks = s.picks := rfl
@[simp] theorem State.takeReset_accepted (s : State) : (s.takeReset).accepted = s.accepted := rfl

@[simp] theorem State.presentWord_sclO (w : Word) (s : State) : (s.presentWord w).sclO = s.sclO := rfl
@[simp] theorem State.presentWord_sdaO (w : Word) (s : State) : (s.presentWord w).sdaO = s.sdaO := rfl
@[simp] theorem State.presentWord_sdaOe (w : Word) (s : State) : (s.presentWord w).sdaOe = s.sdaOe := rfl
@[simp] theorem State.presentWord_busy (w : Word) (s : State) : (s.presentWord w).busy = false := rfl
@[simp] theorem State.presentWord_nack (w : Word) (s : State) : (s.presentWord w).nack = s.nack := rfl
@[simp] theorem State.presentWord_illegal (w : Word) (s : State) : (s.presentWord w).illegal = s.illegal := rfl
@[simp] theorem State.presentWord_rxbyte (w : Word) (s : State) : (s.presentWord w).rxbyte = s.rxbyte := rfl
@[simp] theorem State.presentWord_cmdw (w : Word) (s : State) : (s.presentWord w).cmdw = s.cmdw := rfl
@[simp] theorem State.presentWord_seq (w : Word) (s : State) : (s.presentWord w).seq = .idle := rfl
@[simp] theorem State.presentWord_sr (w : Word) (s : State) : (s.presentWord w).sr = s.sr := rfl
@[simp] theorem State.presentWord_bitcnt (w : Word) (s : State) : (s.presentWord w).bitcnt = s.bitcnt := rfl
@[simp] theorem State.presentWord_retry (w : Word) (s : State) : (s.presentWord w).retry = s.retry := rfl
@[simp] theorem State.presentWord_dtimer (w : Word) (s : State) : (s.presentWord w).dtimer = s.dtimer := rfl
@[simp] theorem State.presentWord_rst (w : Word) (s : State) : (s.presentWord w).rst = false := rfl
@[simp] theorem State.presentWord_held (w : Word) (s : State) : (s.presentWord w).held = [⟨0, w⟩] := rfl
@[simp] theorem State.presentWord_trace (w : Word) (s : State) : (s.presentWord w).trace = s.trace := rfl
@[simp] theorem State.presentWord_owner (w : Word) (s : State) : (s.presentWord w).owner = s.owner := rfl
@[simp] theorem State.presentWord_replies (w : Word) (s : State) : (s.presentWord w).replies = s.replies := rfl
@[simp] theorem State.presentWord_agenda (w : Word) (s : State) : (s.presentWord w).agenda = [] := rfl
@[simp] theorem State.presentWord_peer (w : Word) (s : State) : (s.presentWord w).peer = s.peer := rfl
@[simp] theorem State.presentWord_draws (w : Word) (s : State) : (s.presentWord w).draws = s.draws := rfl
@[simp] theorem State.presentWord_picks (w : Word) (s : State) : (s.presentWord w).picks = s.picks := rfl
@[simp] theorem State.presentWord_accepted (w : Word) (s : State) : (s.presentWord w).accepted = s.accepted := rfl

end Sys2Proof.Machine
end

