-- ==== Sys2Proof/Laws/Bus.lean ====
section
/-!
SUPPORT. The bus reading of a trace in parts, and the counts of a trace in parts.
-/

namespace Sys2Proof.Machine

/-- SDA standing still is no condition. -/
@[simp] theorem sdaCondition_same (scl v : Bool) : sdaCondition scl v v = [] := by
  cases scl <;> cases v <;> rfl

/-- The reader after a list of events that begins at place `n`. -/
def readerAfter : Nat → BusReader → List Event → BusReader
  | _, r, [] => r
  | n, r, e :: es => readerAfter (n + 1) (readEvent n r e).2 es

/-- The reading of a list in two parts. -/
theorem readBus_append (n : Nat) (r : BusReader) (a b : List Event) :
    readBus n r (a ++ b) = readBus n r a ++ readBus (n + a.length) (readerAfter n r a) b := by
  induction a generalizing n r with
  | nil => rfl
  | cons e a ih =>
    simp only [List.cons_append, readBus, readerAfter, ih, List.append_assoc, List.length_cons, Nat.add_assoc, Nat.add_comm 1]

/-- Without a reset, the place in the trace does not matter. -/
theorem readBus_place (n m : Nat) (r : BusReader) {es : List Event} (h : .reset ∉ es) : readBus n r es = readBus m r es := by
  induction es generalizing n m r with
  | nil => rfl
  | cons e es ih =>
    simp only [List.mem_cons, not_or] at h
    have he : readEvent n r e = readEvent m r e := by
      cases e <;> first | rfl | exact absurd rfl h.1
    simp only [readBus, he]
    rw [ih (n + 1) (m + 1) _ h.2]

/-- A delay is not seen on the bus. -/
@[simp] theorem readEvent_delay (n k : Nat) (r : BusReader) : readEvent n r (.delay k) = ([], r) := by
  cases hs : r.lines.sclO <;> simp [readEvent, Lines.after, hs]

@[simp] theorem delayUnits_nil : delayUnits [] = 0 := rfl

@[simp] theorem delayUnits_cons (e : Event) (es : List Event) : delayUnits (e :: es) = e.delayUnits + delayUnits es := by
  simp [delayUnits]

@[simp] theorem delayUnits_append (a b : List Event) : delayUnits (a ++ b) = delayUnits a + delayUnits b := by
  simp [delayUnits]

/-- Events appended to TRACE are the new ones. -/
theorem newEvents_of_append {s t : State} {es : List Event} (h : t.trace = s.trace ++ es) : s.newEvents t = es := by
  simp [State.newEvents, h]

/-- Without a reset, what was put on the bus is the reading of the events alone. -/
theorem seenOnBus_of_append {s t : State} {es : List Event} (h : t.trace = s.trace ++ es) (hr : .reset ∉ es) :
    s.seenOnBus t = busReading s.lines es := by
  rw [State.seenOnBus, newEvents_of_append h, busReading]
  exact readBus_place _ _ _ hr

end Sys2Proof.Machine
end

