-- ==== Sys2Proof/Laws/Ops.lean ====
section
/-!
SUPPORT. For each shared operation, once, everything it can do. Later proofs cite these and do not unfold the operations.
-/

namespace Sys2Proof.Machine

/-! ## Sequencing -/

@[simp] theorem andThen_of_next (s : State) (f : State → Out) : andThen (.next s) f = f s := rfl

@[simp] theorem andThen_of_fault (r : Fault) (f : State → Out) : andThen (.fault r) f = .fault r := rfl

@[simp] theorem andThen_of_refused (r : Refusal) (f : State → Out) : andThen (.refused r) f = .refused r := rfl

/-- A sequence answers a next state only through a next state of its first part. -/
theorem andThen_next_iff {o : Out} {f : State → Out} {t : State} :
    andThen o f = .next t ↔ ∃ u, o = .next u ∧ f u = .next t := by
  cases o <;> simp

theorem andThen_fault_iff {o : Out} {f : State → Out} {r : Fault} :
    andThen o f = .fault r ↔ o = .fault r ∨ ∃ u, o = .next u ∧ f u = .fault r := by
  cases o <;> simp

theorem andThen_assoc (o : Out) (f g : State → Out) :
    andThen (andThen o f) g = andThen o fun s => andThen (f s) g := by
  cases o <;> rfl

/-! ## The PEER's draws -/

/-- Taking a draw brings the later ones one place nearer. -/
@[simp] theorem peerBit_takeDraw (s : State) (k : Nat) : s.takeDraw.peerBit k = s.peerBit (k + 1) := by
  simp [State.peerBit, Nat.add_comm, Nat.add_left_comm]

/-- The draws ahead depend on the PEER's fields alone. -/
theorem peerBit_congr {s t : State} (hp : t.peer = s.peer) (hd : t.draws = s.draws) (k : Nat) :
    t.peerBit k = s.peerBit k := by
  simp [State.peerBit, hp, hd]

/-- Accepting a command takes no draw. -/
@[simp] theorem peerBit_accept (i : Instr) (s : State) (k : Nat) : (s.accept i).peerBit k = s.peerBit k := rfl

/-- Appending an event takes no draw. -/
@[simp] theorem peerBit_log (e : Event) (s : State) (k : Nat) : (s.log e).peerBit k = s.peerBit k := rfl

theorem getSda_released {s : State} (h : s.sdaOe = false) (use : Bool → State → State) :
    s.getSda use = .next (use (s.peerBit 0) (s.takeDraw.log (.get (s.peerBit 0)))) := by
  simp [State.getSda, h]

theorem getSda_driven {s : State} (h : s.sdaOe = true) (use : Bool → State → State) :
    s.getSda use = .fault .readWhileOutput := by
  simp [State.getSda, h]

/-! ## SEQ -/

@[simp] theorem takePath_of_run {s : State} {c : Instr} {p : Nat} {old : Path} (h : s.seq = .run c p old) (path : Path) :
    s.takePath path = { s with seq := .run c p path } := by
  simp [State.takePath, h]

/-- Moving on past the last primitive ends the command, else the index goes up by one. -/
theorem moveOn_of_run {s : State} {c : Instr} {p : Nat} {path : Path} (h : s.seq = .run c p path) :
    s.moveOn =
      if (opAt c path (p + 1) s.retry).isNone then s.finish c path else { s with seq := .run c (p + 1) path } := by
  simp [State.moveOn, h]

theorem controllerStep_idle {s : State} (h : s.seq = .idle) : controllerStep s = .next s := by
  simp [controllerStep, h]

/-- A controller step inside the list is its primitive, then the move to the next one. -/
theorem controllerStep_run {s : State} {c : Instr} {p : Nat} {path : Path} {op : Op}
    (h : s.seq = .run c p path) (ho : opAt c path p s.retry = some op) :
    controllerStep s = andThen (doOp op s) fun u => .next u.moveOn := by
  simp [controllerStep, h, ho]

/-- A controller step past the end of the list ends the command. -/
theorem controllerStep_past {s : State} {c : Instr} {p : Nat} {path : Path}
    (h : s.seq = .run c p path) (ho : opAt c path p s.retry = none) :
    controllerStep s = .next (s.finish c path) := by
  simp [controllerStep, h, ho]

/-! ## Running -/

@[simp] theorem runSteps_zero (s : State) : runSteps 0 s = .next s := rfl

@[simp] theorem runSteps_idle {s : State} (h : s.seq = .idle) (n : Nat) : runSteps n s = .next s := by
  cases n <;> simp [runSteps, h]

theorem runSteps_succ_run {s : State} {c : Instr} {p : Nat} {path : Path} (h : s.seq = .run c p path) (n : Nat) :
    runSteps (n + 1) s = andThen (controllerStep s) (runSteps n) := by
  simp [runSteps, h]

/-- A run of steps in two parts (R62). -/
theorem runSteps_add (m n : Nat) (s : State) : runSteps (m + n) s = andThen (runSteps m s) (runSteps n) := by
  induction m generalizing s with
  | zero => simp
  | succ m ih =>
    cases hq : s.seq with
    | idle => simp [runSteps_idle hq]
    | run c p path =>
      rw [show m + 1 + n = (m + n) + 1 by omega, runSteps_succ_run hq, runSteps_succ_run hq, andThen_assoc]
      cases controllerStep s <;> simp [ih]

/-- A property that every controller step keeps is kept by a run of steps. -/
theorem runSteps_keeps {P : State → Prop} (step_keeps : ∀ s t, P s → controllerStep s = .next t → P t) :
    ∀ (n : Nat) (s t : State), P s → runSteps n s = .next t → P t
  | 0, s, t, hs, h => by
    cases h
    exact hs
  | n + 1, s, t, hs, h => by
    cases hq : s.seq with
    | idle =>
      rw [runSteps_idle hq] at h
      cases h
      exact hs
    | run c p path =>
      rw [runSteps_succ_run hq] at h
      obtain ⟨u, hu, ht⟩ := andThen_next_iff.mp h
      exact runSteps_keeps step_keeps n u t (step_keeps s u hs hu) ht

/-- A run of steps faults only where one of its steps does, in a state the steps before led to. -/
theorem runSteps_no_fault {P : State → Prop} (step_keeps : ∀ s t, P s → controllerStep s = .next t → P t)
    (no_fault : ∀ s r, P s → controllerStep s ≠ .fault r) :
    ∀ (n : Nat) (s : State) (r : Fault), P s → runSteps n s ≠ .fault r
  | 0, s, r, _, h => by cases h
  | n + 1, s, r, hs, h => by
    cases hq : s.seq with
    | idle =>
      rw [runSteps_idle hq] at h
      cases h
    | run c p path =>
      rw [runSteps_succ_run hq] at h
      rcases andThen_fault_iff.mp h with hf | ⟨u, hu, hr⟩
      · exact no_fault s r hs hf
      · exact runSteps_no_fault step_keeps no_fault n u r (step_keeps s u hs hu) hr

/-- Running never refuses. -/
theorem doOp_not_refused (op : Op) (s : State) (r : Refusal) : doOp op s ≠ .refused r := by
  cases op <;> simp [doOp, State.getSda] <;> split <;> simp

/-! ## Carrying out a command -/

/-- A primitive takes one unit of the time of arrivals. -/
@[simp] theorem now_log (e : Event) (s : State) : (s.log e).now = s.now + 1 := by
  simp [State.now]
  omega

/-- Acceptance takes one unit of the time of arrivals (log entry 23). -/
@[simp] theorem now_accept (i : Instr) (s : State) : (s.accept i).now = s.now + 1 := by
  simp [State.now]
  omega

@[simp] theorem now_rejectWord (s : State) : s.rejectWord.now = s.now + 1 := by
  simp [State.now]
  omega

/-- The end of a command takes no time of its own (R27). -/
@[simp] theorem now_finish (c : Instr) (path : Path) (s : State) : (s.finish c path).now = s.now := by
  cases c <;> rfl

theorem stepsAlone_undisturbed {s : State} (h : s.undisturbed = true) (c : Instr) : s.stepsAlone c = maxPrimitives c := by
  unfold State.undisturbed at h
  unfold State.stepsAlone
  split <;> simp_all [Option.isNone_iff_eq_none]

/-- A command in a state that takes one: accepted, then run for the steps the controller has alone. -/
theorem carryOut_accepts {s : State} (hr : s.rst = false) (hb : s.busy = false) (i : Instr) :
    s.carryOut i = runSteps ((s.accept i).stepsAlone i) (s.accept i) := by
  simp [State.carryOut, State.proceed, hr, hb]

/-- A command in a state that runs it alone. -/
theorem carryOut_ready {s : State} (h : s.ready) (i : Instr) :
    s.carryOut i = runSteps (maxPrimitives i) (s.accept i) := by
  rw [carryOut_accepts h.1 h.2.1, stepsAlone_undisturbed (s := s.accept i) h.2.2]

/-- A command that answers a next state either waited, with nothing changed, or was accepted and run. -/
theorem carryOut_cases {s t : State} {i : Instr} (h : s.carryOut i = .next t) :
    (s.busy = true ∧ t = s) ∨ (s.busy = false ∧ runSteps ((s.accept i).stepsAlone i) (s.accept i) = .next t) := by
  cases hr : s.rst with
  | true => simp [State.carryOut, hr] at h
  | false =>
    cases hb : s.busy with
    | true =>
      simp [State.carryOut, hr, hb] at h
      exact .inl ⟨rfl, h.symm⟩
    | false =>
      rw [carryOut_accepts hr hb] at h
      exact .inr ⟨rfl, h⟩

/-- Every arm of `exec` carries out its own command. -/
theorem exec_eq_carryOut (i : Instr) (s : State) : exec i s = s.carryOut i := by
  cases i <;> rfl

/-! ## The port -/

/-- A host access answers its own state, or one of the two refusals; it never faults. -/
theorem hostAccess_cases (idx size : Nat) (s u : State) :
    (s.rst = true ∧ s.hostAccess idx size u = .refused .accessDuringReset) ∨
    (s.rst = false ∧ wholeAccess idx size = true ∧ s.hostAccess idx size u = .next u) ∨
    (s.rst = false ∧ wholeAccess idx size = false ∧ s.hostAccess idx size u = .refused .badAccess) := by
  cases hr : s.rst <;> cases hw : wholeAccess idx size <;> simp [State.hostAccess, hr, hw]

/-- What an arrival can do, when it answers a next state. -/
theorem arrive_cases {x : Input} {s t : State} (h : s.arrive x = .next t) :
    (∃ level, x = .rst level ∧ t = s.setRst level) ∨
    (s.rst = false ∧ ∃ agent idx size, x = .read agent idx size ∧
      t = { s with replies := s.replies ++ [.data agent idx (s.memRead idx)] }) ∨
    (s.rst = false ∧ ∃ agent idx size w, x = .write agent idx size w ∧ t = s.memWrite agent idx w) := by
  cases x with
  | rst level =>
    simp [State.arrive] at h
    exact .inl ⟨level, rfl, h.symm⟩
  | read agent idx size =>
    rcases hostAccess_cases idx size s { s with replies := s.replies ++ [.data agent idx (s.memRead idx)] } with
      ⟨_, e⟩ | ⟨hr, _, e⟩ | ⟨_, _, e⟩ <;> simp [State.arrive, e] at h
    exact .inr (.inl ⟨hr, agent, idx, size, rfl, h.symm⟩)
  | write agent idx size w =>
    rcases hostAccess_cases idx size s (s.memWrite agent idx w) with ⟨_, e⟩ | ⟨hr, _, e⟩ | ⟨_, _, e⟩ <;>
      simp [State.arrive, e] at h
    exact .inr (.inr ⟨hr, agent, idx, size, w, rfl, h.symm⟩)

/-- An arrival never faults. -/
theorem arrive_not_fault (x : Input) (s : State) (r : Fault) : s.arrive x ≠ .fault r := by
  cases x with
  | rst level => simp [State.arrive]
  | read agent idx size =>
    rcases hostAccess_cases idx size s { s with replies := s.replies ++ [.data agent idx (s.memRead idx)] } with
      ⟨_, e⟩ | ⟨_, _, e⟩ | ⟨_, _, e⟩ <;> simp [State.arrive, e]
  | write agent idx size w =>
    rcases hostAccess_cases idx size s (s.memWrite agent idx w) with ⟨_, e⟩ | ⟨_, _, e⟩ | ⟨_, _, e⟩ <;>
      simp [State.arrive, e]

theorem takeHeld_none_iff (s : State) : s.takeHeld = none ↔ s.held = [] := by
  unfold State.takeHeld
  split <;> simp_all

/-- Taking a held write takes one out of the list, and leaves the others in their order. -/
theorem takeHeld_cases {s u : State} {x : PortWrite} (h : s.takeHeld = some (x, u)) :
    ∃ l r k, s.held = l ++ x :: r ∧ u = { s with held := l ++ r, picks := k } := by
  unfold State.takeHeld at h
  split at h
  · cases h
  · rename_i y hy
    cases h
    exact ⟨[], [], s.picks, hy, rfl⟩
  · rename_i y ys hne hy
    have hlt : s.heldChoice < (y :: ys).length := by
      rw [State.heldChoice, hy]
      exact Nat.mod_lt _ (by simp)
    generalize s.heldChoice = k at h hlt
    have hx : ((y :: ys)[k]?).getD y = (y :: ys)[k] := by
      rw [List.getElem?_eq_getElem hlt, Option.getD_some]
    rw [hx] at h
    cases h
    refine ⟨(y :: ys).take k, (y :: ys).drop (k + 1), s.picks + 1, ?_, ?_⟩
    · rw [hy, ← List.drop_eq_getElem_cons hlt, List.take_append_drop]
    · rw [List.eraseIdx_eq_take_drop_succ]

/-- What an accepted write does: its command is carried out, or its word is illegal. -/
theorem acceptWrite_cases (run : Instr → State → Out) (x : PortWrite) (s : State) :
    (∃ i, decode x.word = .command i ∧ s.acceptWrite run x = run i (s.latch x)) ∨
    (∃ r, decode x.word = .illegal r ∧ s.acceptWrite run x = .next (s.latch x).rejectWord) := by
  cases h : decode x.word with
  | command i => exact .inl ⟨i, rfl, by simp [State.acceptWrite, h]⟩
  | illegal r => exact .inr ⟨r, rfl, by simp [State.acceptWrite, h]⟩

/-- Whose move a step is. -/
theorem step_cases (s : State) :
    (∃ a rest, s.agenda = a :: rest ∧ s.due a = true ∧ step s = ({ s with agenda := rest } : State).arrive a.input) ∨
    (s.nothingDue = true ∧ s.rst = true ∧ step s = .next s) ∨
    (s.nothingDue = true ∧ s.rst = false ∧ ∃ c p path, s.seq = .run c p path ∧ step s = runSteps (s.stepsAlone c) s) ∨
    (s.nothingDue = true ∧ s.rst = false ∧ s.seq = .idle ∧ s.held = [] ∧ step s = .next s) ∨
    (s.nothingDue = true ∧ s.rst = false ∧ s.seq = .idle ∧
      ∃ x u, s.takeHeld = some (x, u) ∧ step s = u.acceptWrite exec x) := by
  have move : s.nothingDue = true → step s = s.controllerMove exec := by
    intro h
    unfold State.nothingDue at h
    unfold step State.nextMove
    split <;> simp_all
  have split_move : s.nothingDue = true → _ := fun h =>
    show (s.nothingDue = true ∧ s.rst = true ∧ step s = .next s) ∨
      (s.nothingDue = true ∧ s.rst = false ∧ ∃ c p path, s.seq = .run c p path ∧ step s = runSteps (s.stepsAlone c) s) ∨
      (s.nothingDue = true ∧ s.rst = false ∧ s.seq = .idle ∧ s.held = [] ∧ step s = .next s) ∨
      (s.nothingDue = true ∧ s.rst = false ∧ s.seq = .idle ∧
        ∃ x u, s.takeHeld = some (x, u) ∧ step s = u.acceptWrite exec x) by
    rw [move h]
    cases hr : s.rst with
    | true => exact .inl ⟨h, rfl, by simp [State.controllerMove, hr]⟩
    | false =>
      cases hq : s.seq with
      | run c p path =>
        exact .inr (.inl ⟨h, rfl, c, p, path, rfl, by simp [State.controllerMove, State.proceed, hr, hq]⟩)
      | idle =>
        cases ht : s.takeHeld with
        | none =>
          exact .inr (.inr (.inl ⟨h, rfl, rfl, (takeHeld_none_iff s).mp ht, by
            simp [State.controllerMove, hr, hq, ht]⟩))
        | some xu =>
          exact .inr (.inr (.inr ⟨h, rfl, rfl, xu.1, xu.2, rfl, by simp [State.controllerMove, hr, hq, ht]⟩))
  cases hg : s.agenda with
  | nil => exact .inr (split_move (by simp [State.nothingDue, hg]))
  | cons a rest =>
    cases hd : s.due a with
    | true => exact .inl ⟨a, rest, rfl, hd, by simp [step, State.nextMove, hg, hd]⟩
    | false => exact .inr (split_move (by simp [State.nothingDue, hg, hd]))

end Sys2Proof.Machine
end

