-- ==== Sys2Proof/Laws/Commands.lean ====
section
/-!
SUPPORT. Running a command is running its list of primitives in order: for the commands without a branch, once for all; for
WAIT_ACK, one pair of its loop.
-/

namespace Sys2Proof.Machine

/-- A list of operations in order, without the bookkeeping of SEQ. -/
def runOps : List Op → State → Out
  | [], s => .next s
  | op :: ops, s => andThen (doOp op s) (runOps ops)

@[simp] theorem runOps_nil (s : State) : runOps [] s = .next s := rfl

@[simp] theorem runOps_cons (op : Op) (ops : List Op) (s : State) :
    runOps (op :: ops) s = andThen (doOp op s) (runOps ops) := rfl

/-- A list whose first operation answers a next state goes on from there. -/
theorem runOps_step {op : Op} {ops : List Op} {s u : State} (h : doOp op s = .next u) :
    runOps (op :: ops) s = runOps ops u := by
  rw [runOps_cons, h, andThen_of_next]

theorem runOps_append (a b : List Op) (s : State) : runOps (a ++ b) s = andThen (runOps a s) (runOps b) := by
  induction a generalizing s with
  | nil => rfl
  | cons op a ih =>
    simp only [List.cons_append, runOps_cons, andThen_assoc]
    cases doOp op s <;> simp [ih]

/-- SEQ with another value. -/
def State.withSeq (q : Seq) (s : State) : State := { s with seq := q }

@[simp] theorem State.withSeq_sclO (q : Seq) (s : State) : (s.withSeq q).sclO = s.sclO := rfl
@[simp] theorem State.withSeq_sdaO (q : Seq) (s : State) : (s.withSeq q).sdaO = s.sdaO := rfl
@[simp] theorem State.withSeq_sdaOe (q : Seq) (s : State) : (s.withSeq q).sdaOe = s.sdaOe := rfl
@[simp] theorem State.withSeq_busy (q : Seq) (s : State) : (s.withSeq q).busy = s.busy := rfl
@[simp] theorem State.withSeq_nack (q : Seq) (s : State) : (s.withSeq q).nack = s.nack := rfl
@[simp] theorem State.withSeq_illegal (q : Seq) (s : State) : (s.withSeq q).illegal = s.illegal := rfl
@[simp] theorem State.withSeq_rxbyte (q : Seq) (s : State) : (s.withSeq q).rxbyte = s.rxbyte := rfl
@[simp] theorem State.withSeq_cmdw (q : Seq) (s : State) : (s.withSeq q).cmdw = s.cmdw := rfl
@[simp] theorem State.withSeq_seq (q : Seq) (s : State) : (s.withSeq q).seq = q := rfl
@[simp] theorem State.withSeq_sr (q : Seq) (s : State) : (s.withSeq q).sr = s.sr := rfl
@[simp] theorem State.withSeq_bitcnt (q : Seq) (s : State) : (s.withSeq q).bitcnt = s.bitcnt := rfl
@[simp] theorem State.withSeq_retry (q : Seq) (s : State) : (s.withSeq q).retry = s.retry := rfl
@[simp] theorem State.withSeq_dtimer (q : Seq) (s : State) : (s.withSeq q).dtimer = s.dtimer := rfl
@[simp] theorem State.withSeq_rst (q : Seq) (s : State) : (s.withSeq q).rst = s.rst := rfl
@[simp] theorem State.withSeq_held (q : Seq) (s : State) : (s.withSeq q).held = s.held := rfl
@[simp] theorem State.withSeq_trace (q : Seq) (s : State) : (s.withSeq q).trace = s.trace := rfl
@[simp] theorem State.withSeq_owner (q : Seq) (s : State) : (s.withSeq q).owner = s.owner := rfl
@[simp] theorem State.withSeq_replies (q : Seq) (s : State) : (s.withSeq q).replies = s.replies := rfl
@[simp] theorem State.withSeq_agenda (q : Seq) (s : State) : (s.withSeq q).agenda = s.agenda := rfl
@[simp] theorem State.withSeq_peer (q : Seq) (s : State) : (s.withSeq q).peer = s.peer := rfl
@[simp] theorem State.withSeq_draws (q : Seq) (s : State) : (s.withSeq q).draws = s.draws := rfl
@[simp] theorem State.withSeq_picks (q : Seq) (s : State) : (s.withSeq q).picks = s.picks := rfl
@[simp] theorem State.withSeq_accepted (q : Seq) (s : State) : (s.withSeq q).accepted = s.accepted := rfl

@[simp] theorem State.finish_sclO (c : Instr) (path : Path) (s : State) : (s.finish c path).sclO = s.sclO := by cases c <;> rfl
@[simp] theorem State.finish_sdaO (c : Instr) (path : Path) (s : State) : (s.finish c path).sdaO = s.sdaO := by cases c <;> rfl
@[simp] theorem State.finish_sdaOe (c : Instr) (path : Path) (s : State) : (s.finish c path).sdaOe = s.sdaOe := by cases c <;> rfl
@[simp] theorem State.finish_busy (c : Instr) (path : Path) (s : State) : (s.finish c path).busy = false := by cases c <;> rfl
@[simp] theorem State.finish_illegal (c : Instr) (path : Path) (s : State) : (s.finish c path).illegal = s.illegal := by cases c <;> rfl
@[simp] theorem State.finish_cmdw (c : Instr) (path : Path) (s : State) : (s.finish c path).cmdw = s.cmdw := by cases c <;> rfl
@[simp] theorem State.finish_seq (c : Instr) (path : Path) (s : State) : (s.finish c path).seq = .idle := by cases c <;> rfl
@[simp] theorem State.finish_sr (c : Instr) (path : Path) (s : State) : (s.finish c path).sr = s.sr := by cases c <;> rfl
@[simp] theorem State.finish_bitcnt (c : Instr) (path : Path) (s : State) : (s.finish c path).bitcnt = s.bitcnt := by cases c <;> rfl
@[simp] theorem State.finish_retry (c : Instr) (path : Path) (s : State) : (s.finish c path).retry = s.retry := by cases c <;> rfl
@[simp] theorem State.finish_dtimer (c : Instr) (path : Path) (s : State) : (s.finish c path).dtimer = s.dtimer := by cases c <;> rfl
@[simp] theorem State.finish_rst (c : Instr) (path : Path) (s : State) : (s.finish c path).rst = s.rst := by cases c <;> rfl
@[simp] theorem State.finish_held (c : Instr) (path : Path) (s : State) : (s.finish c path).held = s.held := by cases c <;> rfl
@[simp] theorem State.finish_trace (c : Instr) (path : Path) (s : State) : (s.finish c path).trace = s.trace := by cases c <;> rfl
@[simp] theorem State.finish_owner (c : Instr) (path : Path) (s : State) : (s.finish c path).owner = s.owner := by cases c <;> rfl
@[simp] theorem State.finish_replies (c : Instr) (path : Path) (s : State) : (s.finish c path).replies = s.replies ++ [.done s.owner] := by cases c <;> rfl
@[simp] theorem State.finish_agenda (c : Instr) (path : Path) (s : State) : (s.finish c path).agenda = s.agenda := by cases c <;> rfl
@[simp] theorem State.finish_peer (c : Instr) (path : Path) (s : State) : (s.finish c path).peer = s.peer := by cases c <;> rfl
@[simp] theorem State.finish_draws (c : Instr) (path : Path) (s : State) : (s.finish c path).draws = s.draws := by cases c <;> rfl
@[simp] theorem State.finish_picks (c : Instr) (path : Path) (s : State) : (s.finish c path).picks = s.picks := by cases c <;> rfl
@[simp] theorem State.finish_accepted (c : Instr) (path : Path) (s : State) : (s.finish c path).accepted = s.accepted := by cases c <;> rfl

@[simp] theorem State.finish_nack_waitAck (path : Path) (s : State) :
    (s.finish .waitAck path).nack = decide (path = .timedOut) := rfl

@[simp] theorem State.finish_rxbyte_readByte (path : Path) (s : State) : (s.finish .readByte path).rxbyte = s.sr := rfl

theorem State.finish_nack_other {c : Instr} (h : c ≠ .waitAck) (path : Path) (s : State) :
    (s.finish c path).nack = s.nack := by
  cases c <;> first | rfl | contradiction

theorem State.finish_rxbyte_other {c : Instr} (h : c ≠ .readByte) (path : Path) (s : State) :
    (s.finish c path).rxbyte = s.rxbyte := by
  cases c <;> first | rfl | contradiction

/-- The end of a command does not look at SEQ. -/
@[simp] theorem finish_withSeq (c : Instr) (path : Path) (q : Seq) (s : State) :
    (s.withSeq q).finish c path = s.finish c path := by
  cases c <;> rfl

/-- An operation other than WAIT_ACK's test does not look at SEQ. -/
theorem doOp_withSeq {op : Op} (h : op ≠ .getTest) (q : Seq) (s : State) :
    doOp op (s.withSeq q) = andThen (doOp op s) fun u => .next (u.withSeq q) := by
  cases op <;> first | rfl | contradiction | skip
  cases ho : s.sdaOe with
  | true => rw [doOp, doOp, getSda_driven ho, getSda_driven (by exact ho)]; rfl
  | false => rw [doOp, doOp, getSda_released ho, getSda_released (by exact ho)]; rfl

/-- An operation other than WAIT_ACK's test leaves SEQ alone. -/
theorem doOp_keeps_seq {op : Op} (h : op ≠ .getTest) {s u : State} (hu : doOp op s = .next u) : u.seq = s.seq := by
  have := doOp_withSeq h s.seq s
  rw [hu, andThen_of_next] at this
  have hs : s.withSeq s.seq = s := rfl
  rw [hs, hu] at this
  injection this with e
  rw [e]
  rfl

theorem runOps_withSeq {ops : List Op} (h : .getTest ∉ ops) (q : Seq) (s : State) :
    runOps ops (s.withSeq q) = andThen (runOps ops s) fun u => .next (u.withSeq q) := by
  induction ops generalizing s with
  | nil => rfl
  | cons op ops ih =>
    simp only [List.mem_cons, not_or] at h
    simp only [runOps_cons, doOp_withSeq (Ne.symm h.1), andThen_assoc]
    cases doOp op s <;> simp [ih h.2]

/-- The rest of a list without a branch runs in order, then the command ends. -/
theorem runSteps_straight {c : Instr} {ops : List Op} (hops : ∀ p r, opAt c .main p r = ops[p]?) (hb : .getTest ∉ ops) :
    ∀ (post pre : List Op) (s : State), ops = pre ++ post → post ≠ [] → s.seq = .run c pre.length .main →
      runSteps post.length s = andThen (runOps post s) fun u => .next (u.finish c .main)
  | [], _, _, _, h, _ => absurd rfl h
  | op :: post, pre, s, he, _, hs => by
    have hop : op ≠ .getTest := fun e => hb (by rw [he, ← e]; simp)
    have hpost : .getTest ∉ post := fun e => hb (by rw [he]; simp [e])
    have hat : opAt c .main pre.length s.retry = some op := by
      rw [hops, he, List.getElem?_append_right (by omega), Nat.sub_self]
      rfl
    rw [List.length_cons, runSteps_succ_run hs, controllerStep_run hs hat, runOps_cons]
    cases hd : doOp op s with
    | fault r => rfl
    | refused r => rfl
    | next u =>
      have hu : u.seq = .run c pre.length .main := (doOp_keeps_seq hop hd).trans hs
      have hnext : opAt c .main (pre.length + 1) u.retry = post[0]? := by
        rw [hops, he, List.getElem?_append_right (by omega), show pre.length + 1 - pre.length = 1 by omega]
        rfl
      simp only [andThen_of_next]
      rw [moveOn_of_run hu, hnext]
      cases post with
      | nil => rfl
      | cons op' post' =>
        have ih := runSteps_straight hops hb (op' :: post') (pre ++ [op])
          (u.withSeq (.run c (pre.length + 1) .main)) (by rw [he]; simp) (by simp) (by simp [State.withSeq])
        rw [runOps_withSeq hpost] at ih
        simp only [List.getElem?_cons_zero, Option.isNone_some, Bool.false_eq_true, if_false]
        refine ih.trans ?_
        rw [andThen_assoc]
        simp only [andThen_of_next, finish_withSeq]

/-- A command without a branch, alone, is its list run in order, then its end. -/
theorem exec_straight {c : Instr} {ops : List Op} (hops : ∀ p r, opAt c .main p r = ops[p]?) (hb : .getTest ∉ ops)
    (hlen : maxPrimitives c = ops.length) (hne : ops ≠ []) {s : State} (h : s.ready) :
    exec c s = andThen (runOps ops (s.accept c)) fun u => .next (u.finish c .main) := by
  rw [exec_eq_carryOut, carryOut_ready h, hlen]
  exact runSteps_straight hops hb ops [] (s.accept c) rfl hne rfl

theorem exec_start_runs {s : State} (h : s.ready) :
    exec .start s = andThen (runOps startOps (s.accept .start)) fun u => .next (u.finish .start .main) :=
  exec_straight (fun _ _ => rfl) (by decide) rfl (by decide) h

theorem exec_stop_runs {s : State} (h : s.ready) :
    exec .stop s = andThen (runOps stopOps (s.accept .stop)) fun u => .next (u.finish .stop .main) :=
  exec_straight (fun _ _ => rfl) (by decide) rfl (by decide) h

theorem exec_sendByte_runs (b : Byte) {s : State} (h : s.ready) :
    exec (.sendByte b) s =
      andThen (runOps (sendByteOps b) (s.accept (.sendByte b))) fun u => .next (u.finish (.sendByte b) .main) :=
  exec_straight (fun _ _ => rfl) (by simp [sendByteOps, sendBitOps]) rfl (by simp [sendByteOps]) h

theorem exec_sendAck_runs (n : Bool) {s : State} (h : s.ready) :
    exec (.sendAck n) s =
      andThen (runOps (sendAckOps n) (s.accept (.sendAck n))) fun u => .next (u.finish (.sendAck n) .main) :=
  exec_straight (fun _ _ => rfl) (by simp [sendAckOps]) rfl (by simp [sendAckOps]) h

theorem exec_readByte_runs {s : State} (h : s.ready) :
    exec .readByte s = andThen (runOps readByteOps (s.accept .readByte)) fun u => .next (u.finish .readByte .main) :=
  exec_straight (fun _ _ => rfl) (by decide) rfl (by decide) h

/-- The state after one bit of SEND_BYTE. -/
def State.afterSendBit (s : State) : State := (s.setSda (srTop s.sr) |>.delay 1 |>.setScl true |>.delay 1 |>.setScl false).shiftOneOut

/-- The state after one bit of READ_BYTE. -/
def State.afterReadBit (s : State) : State :=
  State.shiftOneIn (s.peerBit 0)
    ((s.setScl false |>.delay 1 |>.setScl true |>.delay 1).takeDraw.log (.get (s.peerBit 0)))

theorem runOps_sendBit (s : State) : runOps sendBitOps s = .next s.afterSendBit := rfl

theorem runOps_readBit {s : State} (h : s.sdaOe = false) : runOps readBitOps s = .next s.afterReadBit := by
  have ho : (s.setScl false |>.delay 1 |>.setScl true |>.delay 1).sdaOe = false := h
  simp only [readBitOps, runOps_cons, runOps_nil, doOp, andThen_of_next, getSda_released ho]
  rfl

@[simp] theorem State.afterSendBit_sclO (s : State) : s.afterSendBit.sclO = false := rfl
@[simp] theorem State.afterSendBit_sdaO (s : State) : s.afterSendBit.sdaO = srTop s.sr := rfl
@[simp] theorem State.afterSendBit_sdaOe (s : State) : s.afterSendBit.sdaOe = s.sdaOe := rfl
@[simp] theorem State.afterSendBit_busy (s : State) : s.afterSendBit.busy = s.busy := rfl
@[simp] theorem State.afterSendBit_nack (s : State) : s.afterSendBit.nack = s.nack := rfl
@[simp] theorem State.afterSendBit_illegal (s : State) : s.afterSendBit.illegal = s.illegal := rfl
@[simp] theorem State.afterSendBit_rxbyte (s : State) : s.afterSendBit.rxbyte = s.rxbyte := rfl
@[simp] theorem State.afterSendBit_cmdw (s : State) : s.afterSendBit.cmdw = s.cmdw := rfl
@[simp] theorem State.afterSendBit_seq (s : State) : s.afterSendBit.seq = s.seq := rfl
@[simp] theorem State.afterSendBit_sr (s : State) : s.afterSendBit.sr = shiftOut s.sr := rfl
@[simp] theorem State.afterSendBit_bitcnt (s : State) : s.afterSendBit.bitcnt = s.bitcnt + 1#4 := rfl
@[simp] theorem State.afterSendBit_retry (s : State) : s.afterSendBit.retry = s.retry := rfl
@[simp] theorem State.afterSendBit_dtimer (s : State) : s.afterSendBit.dtimer = 0 := rfl
@[simp] theorem State.afterSendBit_rst (s : State) : s.afterSendBit.rst = s.rst := rfl
@[simp] theorem State.afterSendBit_held (s : State) : s.afterSendBit.held = s.held := rfl
@[simp] theorem State.afterSendBit_trace (s : State) : s.afterSendBit.trace = s.trace ++ [.set .sda (srTop s.sr), .delay 1, .set .scl true, .delay 1, .set .scl false] := by simp [State.afterSendBit]
@[simp] theorem State.afterSendBit_owner (s : State) : s.afterSendBit.owner = s.owner := rfl
@[simp] theorem State.afterSendBit_replies (s : State) : s.afterSendBit.replies = s.replies := rfl
@[simp] theorem State.afterSendBit_agenda (s : State) : s.afterSendBit.agenda = s.agenda := rfl
@[simp] theorem State.afterSendBit_peer (s : State) : s.afterSendBit.peer = s.peer := rfl
@[simp] theorem State.afterSendBit_draws (s : State) : s.afterSendBit.draws = s.draws := rfl
@[simp] theorem State.afterSendBit_picks (s : State) : s.afterSendBit.picks = s.picks := rfl
@[simp] theorem State.afterSendBit_accepted (s : State) : s.afterSendBit.accepted = s.accepted := rfl

@[simp] theorem State.afterReadBit_sclO (s : State) : s.afterReadBit.sclO = true := rfl
@[simp] theorem State.afterReadBit_sdaO (s : State) : s.afterReadBit.sdaO = s.sdaO := rfl
@[simp] theorem State.afterReadBit_sdaOe (s : State) : s.afterReadBit.sdaOe = s.sdaOe := rfl
@[simp] theorem State.afterReadBit_busy (s : State) : s.afterReadBit.busy = s.busy := rfl
@[simp] theorem State.afterReadBit_nack (s : State) : s.afterReadBit.nack = s.nack := rfl
@[simp] theorem State.afterReadBit_illegal (s : State) : s.afterReadBit.illegal = s.illegal := rfl
@[simp] theorem State.afterReadBit_rxbyte (s : State) : s.afterReadBit.rxbyte = s.rxbyte := rfl
@[simp] theorem State.afterReadBit_cmdw (s : State) : s.afterReadBit.cmdw = s.cmdw := rfl
@[simp] theorem State.afterReadBit_seq (s : State) : s.afterReadBit.seq = s.seq := rfl
@[simp] theorem State.afterReadBit_sr (s : State) : s.afterReadBit.sr = shiftIn s.sr (s.peerBit 0) := rfl
@[simp] theorem State.afterReadBit_bitcnt (s : State) : s.afterReadBit.bitcnt = s.bitcnt + 1#4 := rfl
@[simp] theorem State.afterReadBit_retry (s : State) : s.afterReadBit.retry = s.retry := rfl
@[simp] theorem State.afterReadBit_dtimer (s : State) : s.afterReadBit.dtimer = 0 := rfl
@[simp] theorem State.afterReadBit_rst (s : State) : s.afterReadBit.rst = s.rst := rfl
@[simp] theorem State.afterReadBit_held (s : State) : s.afterReadBit.held = s.held := rfl
@[simp] theorem State.afterReadBit_trace (s : State) : s.afterReadBit.trace = s.trace ++ [.set .scl false, .delay 1, .set .scl true, .delay 1, .get (s.peerBit 0)] := by simp [State.afterReadBit]
@[simp] theorem State.afterReadBit_owner (s : State) : s.afterReadBit.owner = s.owner := rfl
@[simp] theorem State.afterReadBit_replies (s : State) : s.afterReadBit.replies = s.replies := rfl
@[simp] theorem State.afterReadBit_agenda (s : State) : s.afterReadBit.agenda = s.agenda := rfl
@[simp] theorem State.afterReadBit_peer (s : State) : s.afterReadBit.peer = s.peer.drop 1 := rfl
@[simp] theorem State.afterReadBit_draws (s : State) : s.afterReadBit.draws = s.draws + 1 := rfl
@[simp] theorem State.afterReadBit_picks (s : State) : s.afterReadBit.picks = s.picks := rfl
@[simp] theorem State.afterReadBit_accepted (s : State) : s.afterReadBit.accepted = s.accepted := rfl

/-- A READ_BYTE bit uses up one draw. -/
@[simp] theorem peerBit_afterReadBit (s : State) (k : Nat) : s.afterReadBit.peerBit k = s.peerBit (k + 1) :=
  peerBit_takeDraw s k

/-- A list whose first part answers a next state goes on from there. -/
theorem runOps_part {a b : List Op} {s u : State} (h : runOps a s = .next u) : runOps (a ++ b) s = runOps b u := by
  rw [runOps_append, h, andThen_of_next]

/-- All of SEND_BYTE's list: the shifter loaded, then eight bits. -/
theorem runOps_sendByte (b : Byte) (s : State) :
    runOps (sendByteOps b) s = .next
      (s.dirOut.loadShifter b).afterSendBit.afterSendBit.afterSendBit.afterSendBit.afterSendBit.afterSendBit.afterSendBit.afterSendBit := by
  rw [sendByteOps, runOps_step (u := s.dirOut.loadShifter b) rfl]
  generalize s.dirOut.loadShifter b = u
  simp only [List.append_assoc]
  iterate 7 rw [runOps_part (runOps_sendBit _)]
  exact runOps_sendBit _

/-- All of READ_BYTE's list: SDA released, eight bits, and the clock left low. -/
theorem runOps_readByte (s : State) :
    runOps readByteOps s = .next
      ((s.dirIn.loadShifter 0x00#8).afterReadBit.afterReadBit.afterReadBit.afterReadBit.afterReadBit.afterReadBit.afterReadBit.afterReadBit.setScl
        false) := by
  rw [readByteOps, runOps_step (u := s.dirIn.loadShifter 0x00#8) rfl]
  have ho : (s.dirIn.loadShifter 0x00#8).sdaOe = false := rfl
  generalize s.dirIn.loadShifter 0x00#8 = u at ho
  simp only [List.append_assoc]
  iterate 8 rw [runOps_part (runOps_readBit (by simp only [State.afterReadBit_sdaOe, ho]))]
  rw [runOps_step rfl, runOps_nil]

/-- One step inside a command: its operation, then the next index. -/
theorem runSteps_on {s u : State} {c : Instr} {p : Nat} {path path' : Path} {op : Op} (n : Nat)
    (hs : s.seq = .run c p path) (ho : opAt c path p s.retry = some op) (hd : doOp op s = .next u)
    (hu : u.seq = .run c p path') (hn : (opAt c path' (p + 1) u.retry).isNone = false) :
    runSteps (n + 1) s = runSteps n (u.withSeq (.run c (p + 1) path')) := by
  rw [runSteps_succ_run hs, controllerStep_run hs ho, hd, andThen_of_next, andThen_of_next, moveOn_of_run hu, hn]
  rfl

/-- The last step of a command: its operation, then the end. -/
theorem runSteps_end {s u : State} {c : Instr} {p : Nat} {path path' : Path} {op : Op} (n : Nat)
    (hs : s.seq = .run c p path) (ho : opAt c path p s.retry = some op) (hd : doOp op s = .next u)
    (hu : u.seq = .run c p path') (hn : (opAt c path' (p + 1) u.retry).isNone = true) :
    runSteps (n + 1) s = .next (u.finish c path') := by
  rw [runSteps_succ_run hs, controllerStep_run hs ho, hd, andThen_of_next, andThen_of_next, moveOn_of_run hu, hn]
  exact runSteps_idle rfl n

/-- The state after one pair of WAIT_ACK's loop: a delay, a sample, and the branch on it. -/
def State.afterPair (s : State) : State :=
  { s with
    dtimer := 0, retry := s.retry + 1, peer := s.peer.drop 1, draws := s.draws + 1
    trace := s.trace ++ [.delay 1, .get (s.peerBit 0)]
    seq := .run .waitAck (branchIndex (s.retry + 1)) (ackBranch Config.nRetry (s.retry + 1) (s.peerBit 0)) }

@[simp] theorem State.afterPair_sclO (s : State) : s.afterPair.sclO = s.sclO := rfl
@[simp] theorem State.afterPair_sdaO (s : State) : s.afterPair.sdaO = s.sdaO := rfl
@[simp] theorem State.afterPair_sdaOe (s : State) : s.afterPair.sdaOe = s.sdaOe := rfl
@[simp] theorem State.afterPair_busy (s : State) : s.afterPair.busy = s.busy := rfl
@[simp] theorem State.afterPair_nack (s : State) : s.afterPair.nack = s.nack := rfl
@[simp] theorem State.afterPair_illegal (s : State) : s.afterPair.illegal = s.illegal := rfl
@[simp] theorem State.afterPair_rxbyte (s : State) : s.afterPair.rxbyte = s.rxbyte := rfl
@[simp] theorem State.afterPair_cmdw (s : State) : s.afterPair.cmdw = s.cmdw := rfl
@[simp] theorem State.afterPair_seq (s : State) : s.afterPair.seq = .run .waitAck (branchIndex (s.retry + 1)) (ackBranch Config.nRetry (s.retry + 1) (s.peerBit 0)) := rfl
@[simp] theorem State.afterPair_sr (s : State) : s.afterPair.sr = s.sr := rfl
@[simp] theorem State.afterPair_bitcnt (s : State) : s.afterPair.bitcnt = s.bitcnt := rfl
@[simp] theorem State.afterPair_retry (s : State) : s.afterPair.retry = s.retry + 1 := rfl
@[simp] theorem State.afterPair_dtimer (s : State) : s.afterPair.dtimer = 0 := rfl
@[simp] theorem State.afterPair_rst (s : State) : s.afterPair.rst = s.rst := rfl
@[simp] theorem State.afterPair_held (s : State) : s.afterPair.held = s.held := rfl
@[simp] theorem State.afterPair_trace (s : State) : s.afterPair.trace = s.trace ++ [.delay 1, .get (s.peerBit 0)] := rfl
@[simp] theorem State.afterPair_owner (s : State) : s.afterPair.owner = s.owner := rfl
@[simp] theorem State.afterPair_replies (s : State) : s.afterPair.replies = s.replies := rfl
@[simp] theorem State.afterPair_agenda (s : State) : s.afterPair.agenda = s.agenda := rfl
@[simp] theorem State.afterPair_peer (s : State) : s.afterPair.peer = s.peer.drop 1 := rfl
@[simp] theorem State.afterPair_draws (s : State) : s.afterPair.draws = s.draws + 1 := rfl
@[simp] theorem State.afterPair_picks (s : State) : s.afterPair.picks = s.picks := rfl
@[simp] theorem State.afterPair_accepted (s : State) : s.afterPair.accepted = s.accepted := rfl

/-- A pair of WAIT_ACK's loop uses up one draw. -/
@[simp] theorem peerBit_afterPair (s : State) (k : Nat) : s.afterPair.peerBit k = s.peerBit (k + 1) :=
  peerBit_takeDraw s k

/-- One pair of WAIT_ACK's loop, with SDA released. -/
theorem runSteps_pair {s : State} (n : Nat) (hs : s.seq = .run .waitAck (branchIndex s.retry) .main)
    (ho : s.sdaOe = false) : runSteps (n + 2) s = runSteps n s.afterPair := by
  have index : branchIndex s.retry + 1 + 1 = branchIndex (s.retry + 1) := by unfold branchIndex; omega
  have hdelay : opAt .waitAck .main (branchIndex s.retry) s.retry = some (.delay 1) := by
    have h4 : ¬ branchIndex s.retry < 4 := by unfold branchIndex; omega
    have h2 : branchIndex s.retry % 2 = 0 := by unfold branchIndex; omega
    simp [opAt, waitAckOp, h4, h2]
  have htest : opAt .waitAck .main (branchIndex s.retry + 1) s.retry = some .getTest := by
    have h4 : ¬ branchIndex s.retry + 1 < 4 := by unfold branchIndex; omega
    have h2 : (branchIndex s.retry + 1) % 2 = 1 := by unfold branchIndex; omega
    simp [opAt, waitAckOp, h4, h2]
  have hnext : ∀ path, (opAt .waitAck path (branchIndex (s.retry + 1)) (s.retry + 1)).isNone = false := by
    intro path
    have h4 : ¬ branchIndex (s.retry + 1) < 4 := by unfold branchIndex; omega
    cases path <;> simp [opAt, waitAckOp, h4, ackedOps, timedOutOps, stopOps]
  rw [show n + 2 = (n + 1) + 1 from rfl,
    runSteps_on (u := s.delay 1) (n + 1) hs hdelay rfl hs (by
      rw [State.delay_retry, htest]
      rfl)]
  have hget : doOp .getTest ((s.delay 1).withSeq (.run .waitAck (branchIndex s.retry + 1) .main)) = .next
      (State.testAck (s.peerBit 0)
        (((s.delay 1).withSeq (.run .waitAck (branchIndex s.retry + 1) .main)).takeDraw.log (.get (s.peerBit 0)))) :=
    getSda_released (s := (s.delay 1).withSeq _) ho _
  rw [runSteps_on (s := (s.delay 1).withSeq (.run .waitAck (branchIndex s.retry + 1) .main)) (path' := ackBranch Config.nRetry (s.retry + 1) (s.peerBit 0)) n rfl htest hget rfl (by
    rw [index]
    exact hnext _), index]
  simp [State.afterPair, State.withSeq, State.testAck, State.takePath, State.takeDraw, State.log, State.delay]

/-- The state after WAIT_ACK's four entry primitives. -/
def State.afterEntry (s : State) : State :=
  ((s.dirIn.setSda true |>.delay 1).setScl true).armRetry.withSeq (.run .waitAck (branchIndex 0) .main)

@[simp] theorem State.afterEntry_sclO (s : State) : s.afterEntry.sclO = true := rfl
@[simp] theorem State.afterEntry_sdaO (s : State) : s.afterEntry.sdaO = true := rfl
@[simp] theorem State.afterEntry_sdaOe (s : State) : s.afterEntry.sdaOe = false := rfl
@[simp] theorem State.afterEntry_busy (s : State) : s.afterEntry.busy = s.busy := rfl
@[simp] theorem State.afterEntry_nack (s : State) : s.afterEntry.nack = s.nack := rfl
@[simp] theorem State.afterEntry_illegal (s : State) : s.afterEntry.illegal = s.illegal := rfl
@[simp] theorem State.afterEntry_rxbyte (s : State) : s.afterEntry.rxbyte = s.rxbyte := rfl
@[simp] theorem State.afterEntry_cmdw (s : State) : s.afterEntry.cmdw = s.cmdw := rfl
@[simp] theorem State.afterEntry_seq (s : State) : s.afterEntry.seq = .run .waitAck (branchIndex 0) .main := rfl
@[simp] theorem State.afterEntry_sr (s : State) : s.afterEntry.sr = s.sr := rfl
@[simp] theorem State.afterEntry_bitcnt (s : State) : s.afterEntry.bitcnt = s.bitcnt := rfl
@[simp] theorem State.afterEntry_retry (s : State) : s.afterEntry.retry = 0 := rfl
@[simp] theorem State.afterEntry_dtimer (s : State) : s.afterEntry.dtimer = 0 := rfl
@[simp] theorem State.afterEntry_rst (s : State) : s.afterEntry.rst = s.rst := rfl
@[simp] theorem State.afterEntry_held (s : State) : s.afterEntry.held = s.held := rfl
@[simp] theorem State.afterEntry_trace (s : State) : s.afterEntry.trace = s.trace ++ [.dirIn, .set .sda true, .delay 1, .set .scl true] := by simp [State.afterEntry]
@[simp] theorem State.afterEntry_owner (s : State) : s.afterEntry.owner = s.owner := rfl
@[simp] theorem State.afterEntry_replies (s : State) : s.afterEntry.replies = s.replies := rfl
@[simp] theorem State.afterEntry_agenda (s : State) : s.afterEntry.agenda = s.agenda := rfl
@[simp] theorem State.afterEntry_peer (s : State) : s.afterEntry.peer = s.peer := rfl
@[simp] theorem State.afterEntry_draws (s : State) : s.afterEntry.draws = s.draws := rfl
@[simp] theorem State.afterEntry_picks (s : State) : s.afterEntry.picks = s.picks := rfl
@[simp] theorem State.afterEntry_accepted (s : State) : s.afterEntry.accepted = s.accepted := rfl

/-- The draws ahead are the same after WAIT_ACK's entry. -/
@[simp] theorem peerBit_afterEntry (s : State) (k : Nat) : s.afterEntry.peerBit k = s.peerBit k := rfl

/-- WAIT_ACK's four entry primitives. -/
theorem runSteps_entry (n : Nat) (s : State) :
    runSteps (n + 4) (s.accept .waitAck) = runSteps n (s.accept .waitAck).afterEntry := by
  rw [show n + 4 = n + 3 + 1 from rfl, runSteps_on (s := s.accept .waitAck) (n + 3) rfl (op := .dirIn) rfl rfl rfl rfl,
    runSteps_on (n + 2) rfl (op := .setSda true) rfl rfl rfl rfl,
    runSteps_on (n + 1) rfl (op := .delay 1) rfl rfl rfl rfl,
    runSteps_on n rfl (op := .sclHighArm) rfl rfl rfl rfl]
  refine congrArg (runSteps n) (State.ext ?_ ?_ ?_ ?_ ?_ ?_ ?_ ?_ ?_ ?_ ?_ ?_ ?_ ?_ ?_ ?_ ?_ ?_ ?_ ?_ ?_ ?_ ?_) <;> simp [branchIndex]

/-- WAIT_ACK from label ACKED to its end. -/
theorem runSteps_acked {s : State} (n : Nat) (hs : s.seq = .run .waitAck (branchIndex s.retry) .acked) :
    runSteps (n + 2) s = .next ((s.setScl false).dirOut.finish .waitAck .acked) := by
  rw [show n + 2 = n + 1 + 1 from rfl,
    runSteps_on (u := s.setScl false) (path' := .acked) (n + 1) hs (op := .setScl false) (by simp [opAt, waitAckOp, ackedOps]) rfl hs
      (by simp [opAt, waitAckOp, ackedOps]),
    runSteps_end (u := (s.setScl false).dirOut.withSeq (.run .waitAck (branchIndex s.retry + 1) .acked)) (path' := .acked) n rfl
      (op := .dirOut) (by simp [opAt, waitAckOp, ackedOps]) rfl rfl (by simp [opAt, waitAckOp, ackedOps, Nat.add_assoc]),
    finish_withSeq]

/-- The state after `STOP_SEQ`. -/
def State.afterStop (s : State) : State :=
  (((((s.dirOut.setScl false).setSda false).delay 1).setScl true).delay 1).setSda true |>.delay 1

@[simp] theorem State.afterStop_sclO (s : State) : s.afterStop.sclO = true := rfl
@[simp] theorem State.afterStop_sdaO (s : State) : s.afterStop.sdaO = true := rfl
@[simp] theorem State.afterStop_sdaOe (s : State) : s.afterStop.sdaOe = true := rfl
@[simp] theorem State.afterStop_busy (s : State) : s.afterStop.busy = s.busy := rfl
@[simp] theorem State.afterStop_nack (s : State) : s.afterStop.nack = s.nack := rfl
@[simp] theorem State.afterStop_illegal (s : State) : s.afterStop.illegal = s.illegal := rfl
@[simp] theorem State.afterStop_rxbyte (s : State) : s.afterStop.rxbyte = s.rxbyte := rfl
@[simp] theorem State.afterStop_cmdw (s : State) : s.afterStop.cmdw = s.cmdw := rfl
@[simp] theorem State.afterStop_seq (s : State) : s.afterStop.seq = s.seq := rfl
@[simp] theorem State.afterStop_sr (s : State) : s.afterStop.sr = s.sr := rfl
@[simp] theorem State.afterStop_bitcnt (s : State) : s.afterStop.bitcnt = s.bitcnt := rfl
@[simp] theorem State.afterStop_retry (s : State) : s.afterStop.retry = s.retry := rfl
@[simp] theorem State.afterStop_dtimer (s : State) : s.afterStop.dtimer = 0 := rfl
@[simp] theorem State.afterStop_rst (s : State) : s.afterStop.rst = s.rst := rfl
@[simp] theorem State.afterStop_held (s : State) : s.afterStop.held = s.held := rfl
@[simp] theorem State.afterStop_trace (s : State) : s.afterStop.trace = s.trace ++ [.dirOut, .set .scl false, .set .sda false, .delay 1, .set .scl true, .delay 1, .set .sda true, .delay 1] := by simp [State.afterStop]
@[simp] theorem State.afterStop_owner (s : State) : s.afterStop.owner = s.owner := rfl
@[simp] theorem State.afterStop_replies (s : State) : s.afterStop.replies = s.replies := rfl
@[simp] theorem State.afterStop_agenda (s : State) : s.afterStop.agenda = s.agenda := rfl
@[simp] theorem State.afterStop_peer (s : State) : s.afterStop.peer = s.peer := rfl
@[simp] theorem State.afterStop_draws (s : State) : s.afterStop.draws = s.draws := rfl
@[simp] theorem State.afterStop_picks (s : State) : s.afterStop.picks = s.picks := rfl
@[simp] theorem State.afterStop_accepted (s : State) : s.afterStop.accepted = s.accepted := rfl

/-- WAIT_ACK from label TIMEOUT to its end. -/
theorem runSteps_timedOut {s : State} (n : Nat) (hs : s.seq = .run .waitAck (branchIndex s.retry) .timedOut) :
    runSteps (n + 8) s = .next (s.afterStop.finish .waitAck .timedOut) := by
  have at' : ∀ (j : Nat), opAt .waitAck .timedOut (branchIndex s.retry + j) s.retry = stopOps[j]? := by
    intro j
    simp [opAt, waitAckOp, timedOutOps]
  have on : ∀ (j m : Nat) (u v : State) (op : Op), doOp op u = .next v →
      u.seq = .run .waitAck (branchIndex s.retry + j) .timedOut →
      u.retry = s.retry → v.retry = s.retry → v.seq = u.seq → stopOps[j]? = some op → j < 7 →
      runSteps (m + 1) u = runSteps m (v.withSeq (.run .waitAck (branchIndex s.retry + (j + 1)) .timedOut)) := by
    intro j m u v op hd hu hur hvr hvu ho hj
    refine runSteps_on (p := branchIndex s.retry + j) m hu (by rw [hur, at', ho]) hd (hvu.trans hu) ?_
    rw [hvr, show branchIndex s.retry + j + 1 = branchIndex s.retry + (j + 1) from rfl, at']
    have : j + 1 < stopOps.length := by simp [stopOps]; omega
    simp [List.getElem?_eq_getElem this]
  refine (on 0 (n + 7) s s.dirOut .dirOut rfl hs rfl rfl rfl rfl (by decide)).trans ?_
  refine (on 1 (n + 6) _ _ (.setScl false) (by rfl) (by rfl) (by rfl) (by rfl) (by rfl) (by rfl) (by decide)).trans ?_
  refine (on 2 (n + 5) _ _ (.setSda false) (by rfl) (by rfl) (by rfl) (by rfl) (by rfl) (by rfl) (by decide)).trans ?_
  refine (on 3 (n + 4) _ _ (.delay 1) (by rfl) (by rfl) (by rfl) (by rfl) (by rfl) (by rfl) (by decide)).trans ?_
  refine (on 4 (n + 3) _ _ (.setScl true) (by rfl) (by rfl) (by rfl) (by rfl) (by rfl) (by rfl) (by decide)).trans ?_
  refine (on 5 (n + 2) _ _ (.delay 1) (by rfl) (by rfl) (by rfl) (by rfl) (by rfl) (by rfl) (by decide)).trans ?_
  refine (on 6 (n + 1) _ _ (.setSda true) (by rfl) (by rfl) (by rfl) (by rfl) (by rfl) (by rfl) (by decide)).trans ?_
  refine (runSteps_end (p := branchIndex s.retry + 7) (path' := .timedOut) n (by rfl) (op := .delay 1) (by exact at' 7) (by rfl) (by rfl) (by
    show (opAt .waitAck .timedOut (branchIndex s.retry + 8) s.retry).isNone = true
    rw [at']
    rfl)).trans ?_
  refine congrArg Host.Outcome.next (State.ext ?_ ?_ ?_ ?_ ?_ ?_ ?_ ?_ ?_ ?_ ?_ ?_ ?_ ?_ ?_ ?_ ?_ ?_ ?_ ?_ ?_ ?_ ?_) <;>
    simp [State.finish_rxbyte_other]

end Sys2Proof.Machine
end

