-- ==== Sys2Proof/Laws/PerInstr.lean ====
section
/-!
SUPPORT. Facts about every command as syntax, one lemma per constructor.
-/

namespace Sys2Proof.Laws.MatchesRow

/-- The command's word, under the mask of the command's row of the opcode map, is the row's match value (R71). -/
def Statement (i : Instr) : Prop := encode i &&& rowMask i = rowMatch i

theorem start : Statement .start := by
  unfold Statement
  decide

theorem stop : Statement .stop := by
  unfold Statement
  decide

theorem sendByte (b : Byte) : Statement (.sendByte b) := by
  unfold Statement
  revert b
  decide +kernel

theorem waitAck : Statement .waitAck := by
  unfold Statement
  decide

theorem sendAck (n : Bool) : Statement (.sendAck n) := by
  unfold Statement
  revert n
  decide

theorem readByte : Statement .readByte := by
  unfold Statement
  decide

end Sys2Proof.Laws.MatchesRow
end

