-- ==== Sys2Proof/Machine/HostProgram.lean ====
section
/-!
DEFINITION. Host programs in the notation of 30_encoding.md R77: what one host agent does between its register accesses, with no
other input to come. It is no part of the controller.
-/

namespace Sys2Proof.Machine

/-- One line of a host program (R77). A label is the number of the line it stands at. -/
inductive HostLine where
  /-- A bare command line: `MemWrite(0, 2, word)`. -/
  | command (w : Word)
  /-- `RD STATUS -> s`. -/
  | rdStatus
  /-- `RD RXDATA -> r`. -/
  | rdRxdata
  /-- `BNACK L`. -/
  | bnack (label : Nat)
  /-- `RET v`. -/
  | ret (v : Nat)
  deriving DecidableEq, Repr

/-- Where a host is in its program: the next line, what it has read so far, oldest first, and the result once it has ended. -/
structure HostRun where
  line : Nat
  got : List Word
  result : Option Nat
  deriving DecidableEq, Repr

/-- A host before its first line. -/
def HostRun.begin : HostRun := ⟨0, [], none⟩

/-- What a host program answers: how far it is, and the machine. -/
abbrev HostOut := Host.Outcome (HostRun × State) Fault Refusal

/-- Pair the machine's answer with where the host then is. -/
def withHost (o : Out) (f : State → HostRun) : HostOut :=
  match o with
  | .next s => .next (f s, s)
  | .fault r => .fault r
  | .refused r => .refused r

/-- The state with one host access to come and nothing else. -/
def State.withAccess (x : Input) (s : State) : State := { s with agenda := [⟨none, x⟩] }

/-- A `CMD` write that the host waits for: its arrival, then its acceptance and the command (R60). -/
def State.issue (agent : Nat) (w : Word) (s : State) : Out :=
  andThen (step (s.withAccess (.write agent 0 2 w))) step

/-- A register read (R59). -/
def State.hostRead (agent idx : Nat) (s : State) : Out := step (s.withAccess (.read agent idx 2))

/-- One line of the program of host `agent` (R77). `BNACK` reads STATUS and branches on `NACK`, its bit 1. -/
def hostLine (agent : Nat) (l : HostLine) (h : HostRun) (s : State) : HostOut :=
  match l with
  | .command w => withHost (s.issue agent w) fun _ => { h with line := h.line + 1 }
  | .rdStatus => withHost (s.hostRead agent 1) fun t => { h with line := h.line + 1, got := h.got ++ [t.memRead 1] }
  | .rdRxdata =>
    withHost (s.hostRead agent 2) fun t => { h with line := h.line + 1, got := h.got ++ [(t.memRead 2) &&& 0x00FF#16] }
  | .bnack label =>
    withHost (s.hostRead agent 1) fun t => { h with line := if (t.memRead 1).getLsbD 1 then label else h.line + 1 }
  | .ret v => .next ({ h with result := some v }, s)

/-- Up to `fuel` lines of a host program, until it ends. Past its last line it stands still. -/
def runHost (agent : Nat) (program : List HostLine) : Nat → HostRun → State → HostOut
  | 0, h, s => .next (h, s)
  | fuel + 1, h, s =>
    match h.result, program[h.line]? with
    | none, some l =>
      match hostLine agent l h s with
      | .next (h', s') => runHost agent program fuel h' s'
      | .fault r => .fault r
      | .refused r => .refused r
    | _, _ => .next (h, s)

end Sys2Proof.Machine
end

