-- ==== Sys2Proof/Tests/Slice0.lean ====
section
/-!
SUPPORT. Tests: one step or one operation each, with the results of 95_test_vectors.md; and for every obligation that has
hypotheses, a witness that meets them.
-/

namespace Sys2Proof.Tests

open Sys2Proof.Machine

/-- `p` holds of the next state; no for a fault or a refusal. -/
def onNext (o : Out) (p : State → Bool) : Bool :=
  match o with
  | .next s => p s
  | .fault _ => false
  | .refused _ => false

/-- The step answers this refusal. -/
def refuses (o : Out) (r : Refusal) : Bool :=
  match o with
  | .next _ => false
  | .fault _ => false
  | .refused q => decide (q = r)

/-- `p` holds after the step that carries out the word `w`. -/
def onWord (s : State) (w : Nat) (p : State → Bool) : Bool := onNext (step (s.withFetchWord 16 w)) p

/-- A state with the lines (`SDA_OE`, `SDA_O`, `SCL_O`) of the columns of 95_test_vectors.md. -/
def linesAt (oe sda scl : Bool) : State := { State.reset with sdaOe := oe, sdaO := sda, sclO := scl }

/-- After START (R109). -/
def afterStart : State := linesAt true false false

/-- After READ_BYTE with `SDA_O = 1` (R109). -/
def afterRead : State := linesAt false true false

/-- After an Acked WAIT_ACK (R109). -/
def afterAck : State := linesAt true true false

/-- The state before an input that is due. -/
def withInput (s : State) (x : Input) : State := { s with agenda := [⟨some 0, x⟩] }

/-! ## Decoding (95_test_vectors.md 2.1), the words written bit by bit from R68 and R71 -/

theorem test_decode_start : decode 0b00000_001_00000000#16 = .command .start := by decide

theorem test_decode_stop : decode 0b00000_010_00000000#16 = .command .stop := by decide

theorem test_decode_sendByte : decode 0b00000_011_10100101#16 = .command (.sendByte 0xA5#8) := by decide

theorem test_decode_waitAck : decode 0b00000_100_00000000#16 = .command .waitAck := by decide

theorem test_decode_sendAck :
    decode 0b00000_101_00000000#16 = .command (.sendAck false) ∧ decode 0b00000_101_00000001#16 = .command (.sendAck true) := by
  decide

theorem test_decode_readByte : decode 0b00000_110_00000000#16 = .command .readByte := by decide

theorem test_decode_illegal_op : illegalWord 0x0000#16 = true ∧ illegalWord 0x0700#16 = true := by decide

theorem test_decode_illegal_operand :
    illegalWord 0x0101#16 = true ∧ illegalWord 0x0280#16 = true ∧ illegalWord 0x0401#16 = true ∧
      illegalWord 0x0502#16 = true ∧ illegalWord 0x0503#16 = true ∧ illegalWord 0x0610#16 = true := by decide

theorem test_decode_illegal_reserved :
    illegalWord 0x0B00#16 = true ∧ illegalWord 0x8300#16 = true ∧ illegalWord 0xFFFF#16 = true := by decide

theorem test_decodeTableWord :
    decodeTableWord 16 0x0501 = some (.sendAck true) ∧ decodeTableWord 16 0x0502 = none := by decide

/-! ## WellFormed: an ill-formed line for each check is refused (R75, R76) -/

theorem test_wf_sendByte : (AsmLine.sendByte 255).wf = true ∧ (AsmLine.sendByte 256).wf = false := by decide

theorem test_wf_sendAck : (AsmLine.sendAck 1).wf = true ∧ (AsmLine.sendAck 2).wf = false := by decide

theorem test_wf_addrW : (AsmLine.addrW 127).wf = true ∧ (AsmLine.addrW 128).wf = false := by decide

theorem test_wf_addrR : (AsmLine.addrR 127).wf = true ∧ (AsmLine.addrR 128).wf = false := by decide

theorem test_illformed_lines_do_not_assemble :
    assembleLine (.sendByte 256) = none ∧ assembleLine (.sendAck 2) = none ∧ assembleLine (.addrW 128) = none ∧
      assembleLine (.addrR 128) = none := by decide

theorem test_wf_instr : ∀ i : Instr, i.wf = true := by
  intro i
  cases i <;> rfl

/-- S10 of 95_test_vectors.md: the device address byte. -/
theorem test_assemble_address :
    assembleLine (.addrW 0x68) = some 0x03D0#16 ∧ assembleLine (.addrR 0x68) = some 0x03D1#16 := by decide

/-- R75: either case, three number bases, a comment. -/
theorem test_parse_line :
    parseLine ['a', 'd', 'd', 'r', '_', 'W', ' ', '#', '0', 'x', '6', '8'] = .line (.addrW 0x68) ∧
      parseLine ['S', 'e', 'n', 'd', '_', 'B', 'y', 't', 'e', ' ', '#', '0', 'b', '1', '0', '1', ' ', ';', 'x']
        = .line (.sendByte 5) ∧
      parseLine ['S', 'E', 'N', 'D', '_', 'A', 'C', 'K', ' ', '#', '2'] = .error := by decide

/-! ## The six commands (95_test_vectors.md 2.2 to 2.7) -/

/-- T1. -/
theorem test_start_trace :
    onWord State.reset 0x0100 (fun t => decide (t.trace =
      [.reset, .dirOut, .set .sda true, .delay 1, .set .scl true, .delay 1, .set .sda false, .delay 1, .set .scl false])) = true := by
  decide

/-- H5: START clears ILLEGAL; and H8: it leaves NACK. -/
theorem test_start_status :
    onWord { State.reset with illegal := true } 0x0100 (fun t => decide (t.status = 0x0008#16)) = true ∧
      onWord { State.reset with nack := true } 0x0100 (fun t => decide (t.status = 0x000A#16)) = true := by
  decide

/-- T4. -/
theorem test_stop_trace :
    onWord afterStart 0x0200 (fun t => decide (t.trace =
      [.reset, .dirOut, .set .scl false, .set .sda false, .delay 1, .set .scl true, .delay 1, .set .sda true, .delay 1])) = true := by
  decide

/-- T4. -/
theorem test_stop_status : onWord afterStart 0x0200 (fun t => decide (t.status = 0x0038#16)) = true := by
  decide

/-- B2: the bits on the eight pulses. -/
theorem test_sendByte_bits :
    onWord afterStart 0x03A5 (fun t => decide ((t.trace.filter fun e =>
      decide (e = .set .sda true) || decide (e = .set .sda false)) =
        [.set .sda true, .set .sda false, .set .sda true, .set .sda false, .set .sda false, .set .sda true, .set .sda false,
          .set .sda true])) = true := by
  decide

/-- B2 and B3: the count of R118, STATUS after. -/
theorem test_sendByte_status :
    onWord afterStart 0x03A5 (fun t => decide (t.trace.length = 42) && decide (t.status = 0x0028#16)) = true ∧
      onWord afterStart 0x0300 (fun t => decide (t.status = 0x0008#16)) = true := by
  decide

/-- R3 and R4: the first sample is bit 7. -/
theorem test_readByte_data :
    onWord { afterAck with peer := [true, false, true, false, false, true, false, true] } 0x0600
        (fun t => decide (t.rxdata = 0x00A5#16) && decide (t.status = 0x0020#16)) = true ∧
      onWord { afterAck with peer := [true, false, false, false, false, false, false, false] } 0x0600
        (fun t => decide (t.rxdata = 0x0080#16)) = true := by
  decide

/-- R118: 42 primitives. -/
theorem test_readByte_count :
    onWord { afterAck with peer := [false, false, false, true, false, false, true, false] } 0x0600
      (fun t => decide (t.trace.length = 43) && decide (t.peer = []) && decide (t.draws = 8)) = true := by
  decide

/-- W1. -/
theorem test_waitAck_acked :
    onWord { afterStart with nack := true, peer := [false] } 0x0400 (fun t =>
      decide (t.status = 0x0028#16) && decide (t.trace =
        [.reset, .dirIn, .set .sda true, .delay 1, .set .scl true, .delay 1, .get false, .set .scl false, .dirOut])) = true := by
  decide

/-- W6: the tail of WAIT_ACK after one sample of 1 with a budget of one. -/
theorem test_waitAck_timedOut :
    onNext (step { linesAt false true true with busy := true, seq := .run .waitAck 6 .timedOut, retry := 1 }) (fun t =>
      decide (t.status = 0x003A#16) && decide (t.trace =
        [.reset, .dirOut, .set .scl false, .set .sda false, .delay 1, .set .scl true, .delay 1, .set .sda true, .delay 1])) = true := by
  decide

/-- W1 to W6: the branch after the sample, the acknowledge before the budget. -/
theorem test_ackBranch :
    ackBranch 10 1 false = .acked ∧ ackBranch 10 9 true = .main ∧ ackBranch 10 10 false = .acked ∧
      ackBranch 10 10 true = .timedOut ∧ ackBranch 1 1 false = .acked ∧ ackBranch 1 1 true = .timedOut := by
  decide

/-- A1 and A2. -/
theorem test_sendAck_trace :
    onWord afterRead 0x0500 (fun t => decide (t.trace =
      [.reset, .dirOut, .set .scl false, .set .sda false, .delay 1, .set .scl true, .delay 1, .set .scl false, .set .sda true]))
        = true ∧
      onWord afterRead 0x0501 (fun t => decide (t.trace =
      [.reset, .dirOut, .set .scl false, .set .sda true, .delay 1, .set .scl true, .delay 1, .set .scl false, .set .sda true]))
        = true := by
  decide

/-- A1 and A2. -/
theorem test_sendAck_status :
    onWord afterRead 0x0500 (fun t => decide (t.status = 0x0028#16)) = true ∧
      onWord afterRead 0x0501 (fun t => decide (t.status = 0x0028#16)) = true := by
  decide

/-- H4, H6 and H10: an illegal word. -/
theorem test_illegal_word :
    onWord State.reset 0x0700 (fun t => decide (t.trace = [.reset]) && decide (t.status = 0x003C#16)) = true ∧
      onWord afterStart 0x0101 (fun t => decide (t.status = 0x000C#16)) = true ∧
      onWord { State.reset with nack := true } 0x0000 (fun t => decide (t.status = 0x003E#16)) = true := by
  decide

/-! ## The port and RST (95_test_vectors.md 2.2 and 2.8) -/

/-- H1. -/
theorem test_reads_after_reset :
    State.reset.memRead 0 = 0x0000#16 ∧ State.reset.memRead 1 = 0x0038#16 ∧ State.reset.memRead 2 = 0x0000#16 ∧
      State.reset.memRead 3 = 0x0000#16 := by
  decide

/-- H2 and H3: the write is ignored and complete. -/
theorem test_ignored_writes :
    onNext (step (withInput State.reset (.write 0 1 2 0xFFFF#16)))
        (fun t => decide (t.status = 0x0038#16) && decide (t.replies = [.done 0])) = true ∧
      onNext (step (withInput State.reset (.write 0 3 2 0x1234#16))) (fun t => decide (t.memRead 3 = 0x0000#16)) = true := by
  decide

/-- H7: a read answers and has no effect. -/
theorem test_read_rxdata :
    onNext (step (withInput { afterRead with rxbyte := 0xA5#8 } (.read 1 2 2)))
      (fun t => decide (t.replies = [.data 1 2 0x00A5#16]) && decide (t.rxbyte = 0xA5#8)) = true := by
  decide

/-- X1. -/
theorem test_reset_clears :
    onNext (step (withInput { afterRead with rxbyte := 0x12#8 } (.rst true)))
      (fun t => decide (t.rxdata = 0x0000#16) && decide (t.status = 0x0038#16) && decide (t.trace = [.reset, .reset])) = true := by
  decide

/-- X3: during a WAIT_ACK, with a result of an earlier one in NACK. -/
theorem test_reset_aborts :
    onNext (step (withInput { linesAt false true true with busy := true, nack := true, seq := .run .waitAck 12 .main, retry := 4 }
      (.rst true))) (fun t => decide (t.status = 0x0038#16) && decide (t.seq = .idle)) = true := by
  decide

/-- R107 and R57. -/
theorem test_refused_accesses :
    refuses (step (withInput { State.reset with rst := true } (.read 0 1 2))) .accessDuringReset = true ∧
      refuses (step (withInput State.reset (.read 0 1 1))) .badAccess = true ∧
      refuses (step (withInput State.reset (.read 0 4 2))) .badAccess = true := by
  decide

/-- `p` holds of a host program's next state. -/
def onHost (o : HostOut) (p : HostRun → State → Bool) : Bool :=
  match o with
  | .next (h, s) => p h s
  | .fault _ => false
  | .refused _ => false

/-- R77: a bare command line returns when the command has completed. -/
theorem test_host_command :
    onHost (hostLine 3 (.command 0x0100#16) HostRun.begin State.reset)
      (fun h t => decide (h.line = 1) && decide (t.status = 0x0008#16) && decide (t.replies = [.done 3])) = true := by
  decide

/-- R77: `BNACK` is taken exactly when `NACK = 1`. -/
theorem test_host_bnack :
    onHost (hostLine 3 (.bnack 9) HostRun.begin { State.reset with nack := true }) (fun h _ => decide (h.line = 9)) = true ∧
      onHost (hostLine 3 (.bnack 9) HostRun.begin State.reset) (fun h _ => decide (h.line = 1)) = true := by
  decide

/-! ## The bus (95_test_vectors.md 2.3 to 2.8) -/

/-- T1 and T2. -/
theorem test_bus_start :
    busReading ⟨true, true, true⟩ startTrace = [.startCond] ∧ busReading ⟨true, true, false⟩ startTrace = [.pulse, .startCond] := by
  decide

/-- T4 and T5. -/
theorem test_bus_stop :
    busReading ⟨true, false, false⟩ stopTrace = [.pulse, .stopCond] ∧
      busReading ⟨true, true, true⟩ stopTrace = [.pulse, .stopCond] := by
  decide

/-- B7: the spurious start condition and the seven pulses. -/
theorem test_bus_sendByte :
    busReading ⟨true, true, true⟩ (sendByteTrace 0x00#8) =
      .startCond :: (List.replicate 7 [BusEvent.pulse, .bit false]).flatten := by
  decide

/-- A1 and A2. -/
theorem test_bus_sendAck :
    busReading ⟨false, true, false⟩ (sendAckTrace false) = [.pulse, .bit false] ∧
      busReading ⟨false, true, false⟩ (sendAckTrace true) = [.pulse, .bit true] := by
  decide

/-- W2. -/
theorem test_bus_waitAck :
    busReading ⟨true, false, false⟩ (waitAckEntryTrace ++ samplesTrace [true, true, false] ++ [.set .scl false, .dirOut]) =
      [.pulse, .bit false] := by
  decide

/-- R3. -/
theorem test_bus_readByte :
    busReading ⟨true, true, false⟩ (readByteTrace [true, false, true, false, false, true, false, true]) =
      [.pulse, .bit true, .pulse, .bit false, .pulse, .bit true, .pulse, .bit false, .pulse, .bit false, .pulse, .bit true,
        .pulse, .bit false, .pulse, .bit true] := by
  decide

/-- X2: SDA rises under a high SCL. -/
theorem test_bus_reset : busReading ⟨true, false, true⟩ [.reset] = [.stopCond] := by
  decide

/-! ## Witnesses: the hypotheses of the obligations are met -/

/-- For every obligation with the hypothesis `ready`. -/
theorem test_witness_ready : State.reset.ready ∧ afterStart.ready := by decide

/-- `ready` with an input still to come. -/
theorem test_witness_ready_with_input :
    ({ State.reset with agenda := [⟨none, .read 0 1 2⟩] } : State).ready := by decide

/-- DecodeAndEncodeAgree. -/
theorem test_witness_encoding : Instr.wf (.sendByte 0xFF#8) = true ∧ decode 0x03FF#16 = .command (.sendByte 0xFF#8) := by decide

/-- ExactlyOneRowMatchesALegalWord: a word that selects its row with either operand. -/
theorem test_witness_rows :
    selectsRow 0x0501#16 (.sendAck false) = true ∧ selectsRow 0x0501#16 (.sendAck true) = true := by decide

/-- AssemblerEmitsOnlyLegalWords: the last operand in range of each clause, and the first one out of it. -/
theorem test_witness_assembler :
    assembleLine (.sendByte 255) = some 0x03FF#16 ∧ assembleLine (.sendByte 256) = none ∧
      assembleLine (.sendAck 1) = some 0x0501#16 ∧ assembleLine (.sendAck 2) = none := by decide

/-- PseudoInstructionsExpand, the largest address in range. -/
theorem test_witness_pseudo :
    assembleLine (.addrW 127) = some 0x03FE#16 ∧ assembleLine (.addrR 127) = some 0x03FF#16 := by decide

/-- LevelPrimitives and GetSamplesTheDraw: both directions. -/
theorem test_witness_directions : State.reset.sdaOe = true ∧ afterRead.sdaOe = false := by decide

/-- ShifterArithmetic: the first and the last shift. -/
theorem test_witness_shifts : srTop (shiftOut^[0] 0x80#8) = true ∧ srTop (shiftOut^[7] 0x01#8) = true := by decide

/-- StatusFields: the lowest and the highest reserved bit. -/
theorem test_witness_reserved : State.reset.status.getLsbD 6 = false ∧ State.reset.status.getLsbD 15 = false := by decide

/-- The draws that acknowledge at the first sample. -/
def ackNow : State := { afterStart with peer := [false] }

/-- The draws that acknowledge at the last sample of the budget. -/
def ackAtLast : State := { afterStart with peer := List.replicate (Config.nRetry - 1) true ++ [false] }

/-- The draws that never acknowledge. -/
def ackNever : State := { afterStart with peer := List.replicate Config.nRetry true }

/-- WaitAckIsAckedAtTheFirstZero and PrimitiveAndDelayCounts at `k = 0`. -/
theorem test_witness_acked_first :
    ackNow.ready ∧ 0 < Config.nRetry ∧ (∀ j, j < 0 → ackNow.peerBit j = true) ∧ ackNow.peerBit 0 = false := by
  refine ⟨by decide, by simp [Config.nRetry], ?_, by decide⟩
  intro j h
  omega

/-- WaitAckIsAckedAtTheFirstZero and PrimitiveAndDelayCounts at `k = N_RETRY - 1`. -/
theorem test_witness_acked_last :
    ackAtLast.ready ∧ Config.nRetry - 1 < Config.nRetry ∧ (∀ j, j < Config.nRetry - 1 → ackAtLast.peerBit j = true) ∧
      ackAtLast.peerBit (Config.nRetry - 1) = false := by
  refine ⟨⟨rfl, rfl, rfl⟩, by simp [Config.nRetry], ?_, ?_⟩
  · intro j h
    simp [ackAtLast, State.peerBit, List.getElem?_append, h]
  · simp [ackAtLast, State.peerBit]

/-- WaitAckTimesOutAfterTheBudget and PrimitiveAndDelayCounts. -/
theorem test_witness_timedOut : ackNever.ready ∧ ∀ j, j < Config.nRetry → ackNever.peerBit j = true := by
  refine ⟨⟨rfl, rfl, rfl⟩, ?_⟩
  intro j h
  simp [ackNever, State.peerBit, h]

/-- The bus obligations: resting lines with SCL high and with SCL low. -/
theorem test_witness_resting :
    (State.reset.ready ∧ State.reset.lines.resting ∧ State.reset.sclO = true) ∧
      (afterStart.ready ∧ afterStart.lines.resting ∧ afterStart.sclO = false) ∧
      (afterRead.ready ∧ afterRead.lines.resting ∧ afterRead.sclO = false) := by decide

/-- FrameGrammarKeepsTheClockLow: the start of a frame, and its first byte. -/
theorem test_witness_frame :
    (State.reset.ready ∧ FrameState.fits .outside State.reset ∧ frameNext .outside ⟨0, .start, false⟩ = some .started) ∧
      (afterStart.ready ∧ FrameState.fits .started afterStart ∧
        frameNext .started ⟨0, .sendByte 0xD0#8, false⟩ = some (.addressed 0x68#7)) := by
  refine ⟨⟨by decide, ?_, by decide⟩, ⟨by decide, ?_, by decide⟩⟩
  · simp [FrameState.fits, State.reset]
  · simp [FrameState.fits, afterStart, linesAt]

/-- FrameGrammarKeepsTheClockLow: the end of a frame by STOP, and by a WAIT_ACK that reports no acknowledge. -/
theorem test_witness_frame_end :
    frameNext (.writing 0x68#7 2) ⟨0, .stop, false⟩ = some .outside ∧
      frameNext (.sent 0x68#7 2) ⟨0, .waitAck, true⟩ = some .outside := by decide

/-- CommandFrame: each command answers a next state, so does one cut short and one that waits. -/
theorem test_witness_command_frame :
    onNext (exec .start State.reset) (fun _ => true) = true ∧ onNext (exec (.sendByte 0#8) afterStart) (fun _ => true) = true ∧
      onNext (exec .readByte { afterAck with agenda := [⟨some 3, .rst true⟩] }) (fun t => decide (t.seq ≠ .idle)) = true ∧
      onNext (exec .waitAck ackNow) (fun _ => true) = true := by decide

/-- A START in progress, `p` primitives done. -/
def inStart (p : Nat) : State :=
  { State.reset with cmdw := 0x0100#16, busy := true, seq := .run .start p .main }

/-- ResultsWaitForTheLastStep and OneStepIsOnePrimitive: a step that leaves START running, and its last step. -/
theorem test_witness_running :
    onNext (controllerStep (inStart 0)) (fun t => decide (t.seq = .run .start 1 .main)) = true ∧
      (opAt .start .main 0 0).isSome = true ∧ (opAt .start .main 7 0).isSome = true ∧
      onNext (controllerStep (inStart 7)) (fun t => decide (t.seq = .idle)) = true := by decide

/-- An input that comes at time `n`. -/
def inputAt (n : Nat) : State := { State.reset with agenda := [⟨some n, .rst true⟩] }

/-- ArrivalCutsTheCommandAtItsTime: an input right after the acceptance, one in the middle, and one that comes after the end. -/
theorem test_witness_cut :
    ((inputAt 2).rst = false ∧ (inputAt 2).busy = false ∧ (inputAt 2).agenda = ⟨some 2, .rst true⟩ :: [] ∧ (inputAt 2).now < 2) ∧
      onNext (exec .start (inputAt 2)) (fun t => decide (t.trace = [.reset]) && decide (t.seq = .run .start 0 .main)) = true ∧
      onNext (exec .start (inputAt 5)) (fun t => decide (t.trace.length = 4) && decide (t.now = 5) && decide (t.seq ≠ .idle)) = true ∧
      onNext (exec .start (inputAt 40)) (fun t => decide (t.trace.length = 9) && decide (t.seq = .idle)) = true := by decide

/-- PausingACommandChangesNothing: the first and the last time a read or an ignored write can come into a START, and its answer. -/
theorem test_witness_pause :
    (State.reset.rst = false ∧ State.reset.busy = false ∧ State.reset.agenda = []) ∧
      onNext (exec .start State.reset) (fun v => decide (State.reset.now < 2) && decide (9 < v.now) && decide (v.now = 10)) = true ∧
      Input.answerAt (.read 7 3 2) State.reset = some (.data 7 3 0x0000#16) ∧
      Input.answerAt (.write 7 1 2 0xFFFF#16) State.reset = some (.done 7) ∧
      Input.answerAt (.write 7 0 2 0x0100#16) State.reset = none := by decide

/-- One held write of the word `w`. -/
def oneHeld (w : Word) : State := { State.reset with held := [⟨2, w⟩] }

/-- StepRunsTheDecodedCommand. -/
theorem test_witness_step_runs :
    (oneHeld 0x0500#16).rst = false ∧ (oneHeld 0x0500#16).seq = .idle ∧ (oneHeld 0x0500#16).nothingDue = true ∧
      (oneHeld 0x0500#16).held = [⟨2, 0x0500#16⟩] ∧ decode 0x0500#16 = .command (.sendAck false) ∧
      Instr.wf (.sendAck false) = true := by decide

/-- R60, R27, R30 and AcceptanceComesBeforeTheFirstPrimitive: a STATUS read right after the acceptance of a STOP sees `BUSY = 1` and
the lines of the entry. -/
theorem test_acceptance_is_seen :
    onNext (step { oneHeld 0x0200#16 with agenda := [⟨some 2, .read 5 1 2⟩], sclO := false, sdaO := false }) (fun t =>
      decide (t.seq = .run .stop 0 .main) && decide (t.trace = [.reset]) &&
        onNext (step t) (fun u => decide (u.replies = [.data 5 1 0x0009#16]))) = true ∧
      (oneHeld 0x0200#16).now + 1 = 2 ∧ decode 0x0200#16 = .command .stop := by decide

/-- StepGoesOnWithTheRunningCommand, with no input to come and with one that is not due. -/
theorem test_witness_goes_on :
    ((inStart 3).rst = false ∧ (inStart 3).seq = .run .start 3 .main ∧ (inStart 3).nothingDue = true) ∧
      ({ inStart 3 with agenda := [⟨some 2, .read 0 1 2⟩] } : State).nothingDue = true := by decide

/-- IllegalWordOnlySetsTheFlag, and one illegal word for each reason and the legal words next to it. -/
theorem test_witness_illegal :
    ((oneHeld 0x0700#16).rst = false ∧ (oneHeld 0x0700#16).seq = .idle ∧ (oneHeld 0x0700#16).nothingDue = true ∧
      (oneHeld 0x0700#16).held = [⟨2, 0x0700#16⟩] ∧ illegalWord 0x0700#16 = true) ∧
      illegalWord 0x00FF#16 = true ∧ illegalWord 0x0800#16 = true ∧ illegalWord 0x01FF#16 = true ∧
      illegalWord 0x0502#16 = true ∧ illegalWord 0x0300#16 = false ∧ illegalWord 0x03FF#16 = false ∧
      illegalWord 0x0501#16 = false := by decide

/-- OneHeldWriteIsAccepted, with one write held and with two. -/
theorem test_witness_held :
    ((oneHeld 0x0100#16).nothingDue = true ∧ (oneHeld 0x0100#16).held ≠ []) ∧
      ({ State.reset with held := [⟨1, 0x0100#16⟩, ⟨2, 0x0200#16⟩] } : State).nothingDue = true ∧
      ({ State.reset with held := [⟨1, 0x0100#16⟩, ⟨2, 0x0200#16⟩] } : State).seq = .idle := by decide

/-- ACommandWaitsWhileBusy. -/
theorem test_witness_busy : (inStart 3).rst = false ∧ (inStart 3).busy = true := by decide

/-- HostWritesAtThePort: the first and the last index of each clause, while a command runs. -/
theorem test_witness_writes :
    ∀ idx ∈ [0, 1, 3], ∃ s : State, s.agenda = ⟨some 0, .write 0 idx 2 0x0100#16⟩ :: [] ∧
      s.due ⟨some 0, .write 0 idx 2 0x0100#16⟩ = true ∧ s.rst = false ∧ s.busy = true :=
  fun idx _ => ⟨withInput (inStart 3) (.write 0 idx 2 0x0100#16), rfl, rfl, rfl, rfl⟩

/-- HostReadsAtThePort: every index, while a command runs. -/
theorem test_witness_reads :
    ∀ idx ∈ [0, 1, 2, 3], ∃ s : State, s.agenda = ⟨some 0, .read 0 idx 2⟩ :: [] ∧
      s.due ⟨some 0, .read 0 idx 2⟩ = true ∧ s.rst = false ∧ s.busy = true :=
  fun idx _ => ⟨withInput (inStart 3) (.read 0 idx 2), rfl, rfl, rfl, rfl⟩

/-- OddAccessesAreRefused: a byte access, a double access, and the first index past the block; a read and a write. -/
theorem test_witness_odd :
    ∀ x ∈ [(0, 1), (0, 4), (4, 2)], (x.2 ≠ 2 ∨ 4 ≤ x.1) ∧
      (withInput State.reset (.read 0 x.1 x.2)).due ⟨some 0, .read 0 x.1 x.2⟩ = true ∧
      (withInput State.reset (.write 0 x.1 x.2 0#16)).due ⟨some 0, .write 0 x.1 x.2 0#16⟩ = true ∧
      (withInput State.reset (.read 0 x.1 x.2)).rst = false := by decide

/-- AccessesDuringResetAreRefused and NothingMovesWhileRstIsAsserted: RST asserted, with each kind of input and with none. -/
theorem test_witness_in_reset :
    (∀ a : List Arrival, ({ State.reset with rst := true, agenda := a } : State).rst = true) ∧
      (withInput { State.reset with rst := true } (.rst false)).agenda = ⟨some 0, .rst false⟩ :: [] :=
  ⟨fun _ => rfl, rfl⟩

/-- RegisterAddresses: the last register of the block, and the byte after it. -/
theorem test_witness_addresses :
    regIndex (Config.regBase + 6) = some 3 ∧ regIndex (Config.regBase + 8) = none ∧ regIndex (Config.regBase + 1) = none := by
  simp [regIndex]

/-- ResetAbortsWhateverRuns: with a command running and a write held, and with the controller idle. -/
theorem test_witness_reset_aborts :
    (withInput { inStart 3 with held := [⟨1, 0x0200#16⟩] } (.rst true)).due ⟨some 0, .rst true⟩ = true ∧
      (withInput State.reset (.rst true)).due ⟨some 0, .rst true⟩ = true ∧ State.reset.rst = false := by decide

/-- StepKeepsTheInvariant and SdaIsNeverSampledWhileDriven: a START in progress has the invariant, and steps. -/
theorem test_witness_inv_start : (inStart 3).Inv ∧ onNext (step (inStart 3)) (fun _ => true) = true := by
  refine ⟨?_, by decide⟩
  simp [State.Inv, inStart, State.reset, State.seqOk, State.runningOk]
  decide

/-- EveryCommandEnds (second clause) and ARunningCommandReachesTheNextInput: a START in progress, its input one step ahead. -/
theorem test_witness_goes_on_and_ends :
    ((inStart 3).rst = false ∧ (inStart 3).seq ≠ .idle ∧ (inStart 3).undisturbed = true) ∧
      ({ inStart 3 with agenda := [⟨some 2, .rst true⟩] } : State).now < 2 ∧
      onNext (step { inStart 3 with agenda := [⟨some 2, .rst true⟩] }) (fun t => decide (t.seq = .run .start 4 .main)) = true := by
  decide

/-- ARunningCommandReachesTheNextInput: the invariant does not depend on the inputs to come. -/
theorem test_witness_inv_agenda : ({ inStart 3 with agenda := [⟨some 2, .rst true⟩] } : State).Inv := test_witness_inv_start.1

/-- TheIdleControllerWaits. -/
theorem test_witness_idle :
    State.reset.rst = false ∧ State.reset.seq = .idle ∧ State.reset.held = [] ∧ State.reset.nothingDue = true := by decide

/-- AResetShowsAStopOrNoCondition: SDA at 1 driven and released, SDA driven 0 under a high and under a low SCL. -/
theorem test_witness_reset_bus :
    (∀ s ∈ [State.reset, afterRead, linesAt true false true, afterStart],
      (withInput s (.rst true)).due ⟨some 0, .rst true⟩ = true ∧ (withInput s (.rst true)).rst = false) ∧
      State.reset.lines.sdaM = true ∧ afterRead.lines.sdaM = true ∧
      ((linesAt true false true).lines.sdaM = false ∧ (linesAt true false true).sclO = true) ∧
      (afterStart.lines.sdaM = false ∧ afterStart.sclO = false) := by decide

/-- StepKeepsTheInvariant: RST asserted. -/
theorem test_witness_inv_reset : ({ State.reset with rst := true } : State).Inv := by
  simp [State.Inv, State.reset, State.seqOk, State.lines]

/-- TraceIsOnlyAddedTo: a step that adds events. -/
theorem test_witness_trace : onNext (step (inStart 3)) (fun t => decide (t.trace.length = 6)) = true := by decide

/-- A READ_BYTE before its last primitive, 0xA5 received. -/
def lastOfRead : State :=
  { linesAt false true true with cmdw := 0x0600#16, busy := true, seq := .run .readByte 41 .main, sr := 0xA5#8, bitcnt := 8#4 }

/-- ResultsHaveOneWriter: a step that changes RXBYTE. -/
theorem test_witness_rxbyte :
    lastOfRead.Inv ∧ onNext (step lastOfRead)
      (fun t => decide (t.rst = false) && decide (t.rxbyte ≠ lastOfRead.rxbyte) && decide (t.seq = .idle)) = true := by
  refine ⟨?_, by decide⟩
  simp [State.Inv, lastOfRead, linesAt, State.reset, State.seqOk, State.runningOk]
  decide

/-- A WAIT_ACK before its last primitive, acknowledged at its first sample. -/
def lastOfWait : State :=
  { linesAt false true false with cmdw := 0x0400#16, busy := true, nack := true, seq := .run .waitAck 7 .acked, retry := 1 }

/-- ResultsHaveOneWriter: a step that changes NACK. -/
theorem test_witness_nack :
    lastOfWait.Inv ∧ onNext (step lastOfWait)
      (fun t => decide (t.rst = false) && decide (t.nack ≠ lastOfWait.nack) && decide (t.seq = .idle)) = true := by
  refine ⟨?_, by decide⟩
  simp [State.Inv, lastOfWait, linesAt, State.reset, State.seqOk, State.runningOk, branchIndex, Config.nRetry]
  decide

/-- R61: the only held write is the one taken. -/
theorem test_takeHeld_one : (oneHeld 0x0100#16).takeHeld = some (⟨2, 0x0100#16⟩, State.reset) := by decide

end Sys2Proof.Tests
end

section
/-!
PROOFS. What one primitive does to the state, and what one controller step can do.
-/

namespace Sys2Proof.Machine

/-! ## The effect of one primitive -/

/-- The operation samples SDA, so that SDA must be released before it (R47). -/
def Op.samples : Op → Bool
  | .getShift => true
  | .getTest => true
  | _ => false

/-- The state after an operation that does not fault: what `doOp` answers. -/
def State.afterOp (op : Op) (s : State) : State :=
  match op with
  | .dirOut => s.dirOut
  | .dirIn => s.dirIn
  | .setScl v => s.setScl v
  | .setSda v => s.setSda v
  | .delay n => s.delay n
  | .dirOutLoad b => s.dirOut.loadShifter b
  | .setSdaTop => s.setSda (srTop s.sr)
  | .sclLowShift => (s.setScl false).shiftOneOut
  | .dirInClear => s.dirIn.loadShifter 0x00#8
  | .getShift => (s.takeDraw.log (.get (s.peerBit 0))).shiftOneIn (s.peerBit 0)
  | .sclHighArm => (s.setScl true).armRetry
  | .getTest => (s.takeDraw.log (.get (s.peerBit 0))).testAck (s.peerBit 0)

/-- An operation answers its next state exactly where it does not sample a driven SDA. -/
theorem doOp_next_iff {op : Op} {s u : State} :
    doOp op s = .next u ↔ (op.samples = true → s.sdaOe = false) ∧ s.afterOp op = u := by
  cases op with
  | getShift => cases ho : s.sdaOe <;> simp [doOp, getSda_driven, getSda_released, ho, Op.samples, State.afterOp]
  | getTest => cases ho : s.sdaOe <;> simp [doOp, getSda_driven, getSda_released, ho, Op.samples, State.afterOp]
  | _ => simp [doOp, Op.samples, State.afterOp]

/-- SEQ with another path. -/
def Seq.along (path : Path) : Seq → Seq
  | .idle => .idle
  | .run c p _ => .run c p path

theorem takePath_eq_withSeq (path : Path) (s : State) : s.takePath path = s.withSeq (s.seq.along path) := by
  cases h : s.seq <;> simp [State.takePath, State.withSeq, Seq.along, h]
  rw [← h]

/-- WAIT_ACK's test counts the sample and takes the branch on it. -/
theorem testAck_eq_withSeq (b : Bool) (s : State) :
    s.testAck b = ({ s with retry := s.retry + 1 } : State).withSeq
      (s.seq.along (ackBranch Config.nRetry (s.retry + 1) b)) := by
  rw [State.testAck, takePath_eq_withSeq]

@[simp] theorem State.afterOp_busy (op : Op) (s : State) : (s.afterOp op).busy = s.busy := by
  cases op <;> simp [State.afterOp, testAck_eq_withSeq]
@[simp] theorem State.afterOp_nack (op : Op) (s : State) : (s.afterOp op).nack = s.nack := by
  cases op <;> simp [State.afterOp, testAck_eq_withSeq]
@[simp] theorem State.afterOp_illegal (op : Op) (s : State) : (s.afterOp op).illegal = s.illegal := by
  cases op <;> simp [State.afterOp, testAck_eq_withSeq]
@[simp] theorem State.afterOp_rxbyte (op : Op) (s : State) : (s.afterOp op).rxbyte = s.rxbyte := by
  cases op <;> simp [State.afterOp, testAck_eq_withSeq]
@[simp] theorem State.afterOp_cmdw (op : Op) (s : State) : (s.afterOp op).cmdw = s.cmdw := by
  cases op <;> simp [State.afterOp, testAck_eq_withSeq]
@[simp] theorem State.afterOp_rst (op : Op) (s : State) : (s.afterOp op).rst = s.rst := by
  cases op <;> simp [State.afterOp, testAck_eq_withSeq]
@[simp] theorem State.afterOp_held (op : Op) (s : State) : (s.afterOp op).held = s.held := by
  cases op <;> simp [State.afterOp, testAck_eq_withSeq]
@[simp] theorem State.afterOp_owner (op : Op) (s : State) : (s.afterOp op).owner = s.owner := by
  cases op <;> simp [State.afterOp, testAck_eq_withSeq]
@[simp] theorem State.afterOp_replies (op : Op) (s : State) : (s.afterOp op).replies = s.replies := by
  cases op <;> simp [State.afterOp, testAck_eq_withSeq]
@[simp] theorem State.afterOp_agenda (op : Op) (s : State) : (s.afterOp op).agenda = s.agenda := by
  cases op <;> simp [State.afterOp, testAck_eq_withSeq]
@[simp] theorem State.afterOp_picks (op : Op) (s : State) : (s.afterOp op).picks = s.picks := by
  cases op <;> simp [State.afterOp, testAck_eq_withSeq]
@[simp] theorem State.afterOp_accepted (op : Op) (s : State) : (s.afterOp op).accepted = s.accepted := by
  cases op <;> simp [State.afterOp, testAck_eq_withSeq]

/-- The event of an operation (R42, R52). -/
def Op.event (op : Op) (s : State) : Event :=
  match op with
  | .dirOut => .dirOut
  | .dirIn => .dirIn
  | .setScl v => .set .scl v
  | .setSda v => .set .sda v
  | .delay n => .delay n
  | .dirOutLoad _ => .dirOut
  | .setSdaTop => .set .sda (srTop s.sr)
  | .sclLowShift => .set .scl false
  | .dirInClear => .dirIn
  | .getShift => .get (s.peerBit 0)
  | .sclHighArm => .set .scl true
  | .getTest => .get (s.peerBit 0)

/-- Every operation appends its one event. -/
@[simp] theorem State.afterOp_trace (op : Op) (s : State) : (s.afterOp op).trace = s.trace ++ [op.event s] := by
  cases op <;> simp [State.afterOp, testAck_eq_withSeq, Op.event]

/-- An operation moves the lines as its event says. -/
theorem State.afterOp_lines (op : Op) (s : State) : (s.afterOp op).lines = s.lines.after (op.event s) := by
  cases op <;> simp [State.afterOp, testAck_eq_withSeq, Op.event, State.lines, Lines.after]

@[simp] theorem State.afterOp_now (op : Op) (s : State) : (s.afterOp op).now = s.now + 1 := by
  simp [State.now]
  omega

/-- An operation other than WAIT_ACK's test leaves SEQ alone. -/
theorem State.afterOp_seq {op : Op} (h : op ≠ .getTest) (s : State) : (s.afterOp op).seq = s.seq := by
  cases op with
  | getTest => exact absurd rfl h
  | _ => rfl

/-- An operation leaves the command and the index in SEQ as they are. -/
theorem State.afterOp_seq_run {s : State} {c : Instr} {p : Nat} {path : Path} (h : s.seq = .run c p path) (op : Op) :
    ∃ path', (s.afterOp op).seq = .run c p path' := by
  by_cases hop : op = .getTest
  · exact ⟨ackBranch Config.nRetry (s.retry + 1) (s.peerBit 0), by
      simp [hop, State.afterOp, testAck_eq_withSeq, h, Seq.along]⟩
  · exact ⟨path, (s.afterOp_seq hop).trans h⟩

/-! ## One controller step -/

/-- What SEQ's move to the next primitive can do. -/
theorem moveOn_cases {s : State} {c : Instr} {p : Nat} {path : Path} (h : s.seq = .run c p path) :
    ((opAt c path (p + 1) s.retry).isNone = true ∧ s.moveOn = s.finish c path) ∨
    ((opAt c path (p + 1) s.retry).isNone = false ∧ s.moveOn = s.withSeq (.run c (p + 1) path)) := by
  rw [moveOn_of_run h]
  cases (opAt c path (p + 1) s.retry).isNone
  · exact .inr ⟨rfl, rfl⟩
  · exact .inl ⟨rfl, rfl⟩

/-- What a controller step of a running command can do: past the list it ends the command; in the list it performs one operation
and ends the command or goes on to the next index. -/
theorem controllerStep_cases {s t : State} {c : Instr} {p : Nat} {path : Path} (hs : s.seq = .run c p path)
    (h : controllerStep s = .next t) :
    (opAt c path p s.retry = none ∧ t = s.finish c path) ∨
    ∃ op path', opAt c path p s.retry = some op ∧
      (t = (s.afterOp op).finish c path' ∨ t = (s.afterOp op).withSeq (.run c (p + 1) path')) := by
  cases ho : opAt c path p s.retry with
  | none =>
    rw [controllerStep_past hs ho] at h
    cases h
    exact .inl ⟨rfl, rfl⟩
  | some op =>
    rw [controllerStep_run hs ho] at h
    obtain ⟨u, hu, ht⟩ := andThen_next_iff.mp h
    obtain ⟨-, rfl⟩ := doOp_next_iff.mp hu
    cases ht
    obtain ⟨path', hp⟩ := State.afterOp_seq_run hs op
    refine .inr ⟨op, path', rfl, ?_⟩
    rcases moveOn_cases hp with ⟨-, e⟩ | ⟨-, e⟩
    · exact .inl e
    · exact .inr e

/-- R17, R42: one step, one primitive. Settles O32 from the cases of a controller step. -/
theorem oneStepIsOnePrimitive : Obligations.OneStepIsOnePrimitive := by
  intro s t c p path hs ho h
  rcases controllerStep_cases hs h with ⟨hn, -⟩ | ⟨op, path', -, ht⟩
  · simp [hn] at ho
  have hl := s.afterOp_lines op
  rcases ht with rfl | rfl
  · exact ⟨⟨op.event s, by simp, by simpa [State.lines] using hl⟩, .inl (by simp)⟩
  · exact ⟨⟨op.event s, by simp, by simpa [State.lines] using hl⟩, .inr ⟨path', rfl⟩⟩

end Sys2Proof.Machine
end

section
/-!
PROOFS. What a command leaves alone, at every point of its run.
-/

namespace Sys2Proof.Machine

/-- The commands whose lists have the operation. `True` where any may have it. -/
def Op.belongsTo (c : Instr) : Op → Prop
  | .setSda _ => c ≠ .readByte
  | .dirOutLoad _ => ∃ b, c = .sendByte b
  | .setSdaTop => ∃ b, c = .sendByte b
  | .sclLowShift => ∃ b, c = .sendByte b
  | .dirInClear => c = .readByte
  | .getShift => c = .readByte
  | .sclHighArm => c = .waitAck
  | .getTest => c = .waitAck
  | _ => True

theorem waitAckOp_belongsTo {path : Path} {p retry : Nat} {op : Op} (h : waitAckOp path p retry = some op) :
    op.belongsTo .waitAck := by
  have entry : ∀ op ∈ waitAckEntryOps, op.belongsTo .waitAck := by simp [waitAckEntryOps, Op.belongsTo]
  have acked : ∀ op ∈ ackedOps, op.belongsTo .waitAck := by simp [ackedOps, Op.belongsTo]
  have timedOut : ∀ op ∈ timedOutOps, op.belongsTo .waitAck := by simp [timedOutOps, stopOps, Op.belongsTo]
  match path with
  | .main =>
    simp only [waitAckOp] at h
    split at h
    · exact entry op (List.mem_of_getElem? h)
    · cases h
      split <;> simp [Op.belongsTo]
  | .acked => exact acked op (List.mem_of_getElem? h)
  | .timedOut => exact timedOut op (List.mem_of_getElem? h)

/-- A command performs only operations that belong to it. -/
theorem opAt_belongsTo {c : Instr} {path : Path} {p retry : Nat} {op : Op} (h : opAt c path p retry = some op) :
    op.belongsTo c := by
  have start : ∀ op ∈ startOps, op.belongsTo .start := by simp [startOps, Op.belongsTo]
  have stop : ∀ op ∈ stopOps, op.belongsTo .stop := by simp [stopOps, Op.belongsTo]
  have sendByte : ∀ b, ∀ op ∈ sendByteOps b, op.belongsTo (.sendByte b) := by
    simp [sendByteOps, sendBitOps, Op.belongsTo]
  have sendAck : ∀ n, ∀ op ∈ sendAckOps n, op.belongsTo (.sendAck n) := by simp [sendAckOps, Op.belongsTo]
  have readByte : ∀ op ∈ readByteOps, op.belongsTo .readByte := by simp [readByteOps, readBitOps, Op.belongsTo]
  cases c with
  | start => exact start op (List.mem_of_getElem? h)
  | stop => exact stop op (List.mem_of_getElem? h)
  | sendByte b => exact sendByte b op (List.mem_of_getElem? h)
  | waitAck => exact waitAckOp_belongsTo h
  | sendAck n => exact sendAck n op (List.mem_of_getElem? h)
  | readByte => exact readByte op (List.mem_of_getElem? h)

/-- What running command `c` from `s` to `t` has left alone, whether the command has ended or not. -/
structure State.KeptBy (c : Instr) (s t : State) : Prop where
  rst : t.rst = s.rst
  cmdw : t.cmdw = s.cmdw
  held : t.held = s.held
  owner : t.owner = s.owner
  agenda : t.agenda = s.agenda
  picks : t.picks = s.picks
  accepted : t.accepted = s.accepted
  illegal : t.illegal = s.illegal
  nack : c ≠ .waitAck → t.nack = s.nack
  retry : c ≠ .waitAck → t.retry = s.retry
  rxbyte : c ≠ .readByte → t.rxbyte = s.rxbyte
  sdaO : c = .readByte → t.sdaO = s.sdaO
  draws : c ≠ .waitAck → c ≠ .readByte → t.peer = s.peer ∧ t.draws = s.draws
  shifter : c ≠ .readByte → (∀ b, c ≠ .sendByte b) → t.sr = s.sr ∧ t.bitcnt = s.bitcnt
  trace : s.trace <+: t.trace

namespace State.KeptBy

theorem refl (c : Instr) (s : State) : s.KeptBy c s := by
  constructor <;> simp

theorem trans {c : Instr} {s t u : State} (h : s.KeptBy c t) (k : t.KeptBy c u) : s.KeptBy c u where
  rst := k.rst.trans h.rst
  cmdw := k.cmdw.trans h.cmdw
  held := k.held.trans h.held
  owner := k.owner.trans h.owner
  agenda := k.agenda.trans h.agenda
  picks := k.picks.trans h.picks
  accepted := k.accepted.trans h.accepted
  illegal := k.illegal.trans h.illegal
  nack hc := (k.nack hc).trans (h.nack hc)
  retry hc := (k.retry hc).trans (h.retry hc)
  rxbyte hc := (k.rxbyte hc).trans (h.rxbyte hc)
  sdaO hc := (k.sdaO hc).trans (h.sdaO hc)
  draws hw hr := ⟨(k.draws hw hr).1.trans (h.draws hw hr).1, (k.draws hw hr).2.trans (h.draws hw hr).2⟩
  shifter hr hs := ⟨(k.shifter hr hs).1.trans (h.shifter hr hs).1, (k.shifter hr hs).2.trans (h.shifter hr hs).2⟩
  trace := h.trace.trans k.trace

/-- SEQ is no part of the frame. -/
theorem withSeq (c : Instr) (q : Seq) (s : State) : s.KeptBy c (s.withSeq q) := by
  constructor <;> simp

/-- An operation keeps what the commands it belongs to keep. -/
theorem afterOp {c : Instr} {op : Op} (h : op.belongsTo c) (s : State) : s.KeptBy c (s.afterOp op) where
  rst := s.afterOp_rst op
  cmdw := s.afterOp_cmdw op
  held := s.afterOp_held op
  owner := s.afterOp_owner op
  agenda := s.afterOp_agenda op
  picks := s.afterOp_picks op
  accepted := s.afterOp_accepted op
  illegal := s.afterOp_illegal op
  nack _ := s.afterOp_nack op
  rxbyte _ := s.afterOp_rxbyte op
  retry hc := by
    cases op with
    | sclHighArm => exact absurd h hc
    | getTest => exact absurd h hc
    | _ => rfl
  sdaO hc := by
    cases op with
    | setSda v => exact absurd hc h
    | setSdaTop => obtain ⟨b, rfl⟩ := h; cases hc
    | getTest => cases hc.symm.trans h
    | _ => rfl
  draws hw hr := by
    cases op with
    | getShift => exact absurd h hr
    | getTest => exact absurd h hw
    | _ => exact ⟨rfl, rfl⟩
  shifter hr hs := by
    cases op with
    | dirOutLoad v => exact h.elim fun b hb => absurd hb (hs b)
    | sclLowShift => exact h.elim fun b hb => absurd hb (hs b)
    | dirInClear => exact absurd h hr
    | getShift => exact absurd h hr
    | getTest => simp [State.afterOp, testAck_eq_withSeq]
    | _ => exact ⟨rfl, rfl⟩
  trace := by simp

theorem finish (c : Instr) (path : Path) (s : State) : s.KeptBy c (s.finish c path) := by
  constructor <;> simp +contextual [finish_nack_other, finish_rxbyte_other]

end State.KeptBy


/-- A state that running command `c` from `s` leads to: the command has ended, or it still runs with its results not committed (R59). -/
structure State.OnRunOf (c : Instr) (s t : State) : Prop where
  kept : s.KeptBy c t
  ended_or_running : (t.seq = .idle ∧ t.busy = false) ∨
    ((∃ p path, t.seq = .run c p path) ∧ t.nack = s.nack ∧ t.rxbyte = s.rxbyte ∧ t.busy = s.busy)

theorem State.OnRunOf.refl {c : Instr} {s : State} {p : Nat} {path : Path} (hs : s.seq = .run c p path) : s.OnRunOf c s :=
  ⟨.refl c s, .inr ⟨⟨p, path, hs⟩, rfl, rfl, rfl⟩⟩

/-- One controller step of a running command. -/
theorem controllerStep_onRunOf {s t : State} {c : Instr} {p : Nat} {path : Path} (hs : s.seq = .run c p path)
    (h : controllerStep s = .next t) : s.OnRunOf c t := by
  rcases controllerStep_cases hs h with ⟨-, rfl⟩ | ⟨op, path', ho, rfl | rfl⟩
  · exact ⟨.finish c path s, .inl (by simp)⟩
  · exact ⟨(State.KeptBy.afterOp (opAt_belongsTo ho) s).trans (.finish c path' _), .inl (by simp)⟩
  · exact ⟨(State.KeptBy.afterOp (opAt_belongsTo ho) s).trans (.withSeq c _ _), .inr ⟨⟨p + 1, path', rfl⟩, by simp⟩⟩

/-- A later controller step stays on the run. -/
theorem State.OnRunOf.controllerStep {c : Instr} {s t u : State} (h : s.OnRunOf c t) (hu : controllerStep t = .next u) :
    s.OnRunOf c u := by
  rcases h.ended_or_running with ⟨hq, -⟩ | ⟨⟨p, path, hq⟩, hn, hx, hb⟩
  · rw [controllerStep_idle hq] at hu
    cases hu
    exact h
  · have k := controllerStep_onRunOf hq hu
    refine ⟨h.kept.trans k.kept, k.ended_or_running.imp_right ?_⟩
    rintro ⟨hr, hn', hx', hb'⟩
    exact ⟨hr, hn'.trans hn, hx'.trans hx, hb'.trans hb⟩

/-- Any number of controller steps of a running command. -/
theorem runSteps_onRunOf {s t : State} {c : Instr} {p : Nat} {path : Path} (hs : s.seq = .run c p path) {n : Nat}
    (h : runSteps n s = .next t) : s.OnRunOf c t :=
  runSteps_keeps (P := s.OnRunOf c) (fun _ _ => .controllerStep) n s t (.refl hs) h

/-- R28, R31, R34, R35. Settles O30 from what a run keeps. -/
theorem commandFrame : Obligations.CommandFrame := by
  intro i s t h
  rw [exec_eq_carryOut] at h
  rcases carryOut_cases h with ⟨hb, rfl⟩ | ⟨hb, hrun⟩
  · simp [hb]
  · have k := (runSteps_onRunOf (c := i) (p := 0) (path := .main) rfl hrun).kept
    exact ⟨k.rst, k.cmdw, k.held, k.owner, k.agenda, k.picks, by simpa [hb] using k.accepted,
      fun hc => ⟨k.nack hc, k.retry hc⟩, k.rxbyte, k.sdaO, k.draws, k.shifter, k.trace.imp fun _ => Eq.symm⟩

end Sys2Proof.Machine
end

section
/-!
PROOFS. The next primitive of each command, wherever the invariant lets the command stand.
-/

namespace Sys2Proof.Machine

/-- The counters stay in their ranges from `s` to `t`, each by itself (R35, R36). -/
structure State.KeepsCounters (s t : State) : Prop where
  bitcnt : s.bitcnt.toNat ≤ 8 → t.bitcnt.toNat ≤ 8
  retry : s.retry ≤ Config.nRetry → t.retry ≤ Config.nRetry
  dtimer : s.dtimer = 0 → t.dtimer = 0

theorem State.KeepsCounters.trans {s t u : State} (h : s.KeepsCounters t) (k : t.KeepsCounters u) : s.KeepsCounters u :=
  ⟨k.bitcnt ∘ h.bitcnt, k.retry ∘ h.retry, k.dtimer ∘ h.dtimer⟩

/-- Command `c` fits the state at index `p`: the lines may rest where its list has ended, else it stands there as it should. -/
def State.fitsAt (c : Instr) (p : Nat) (path : Path) (s : State) : Prop :=
  if (opAt c path p s.retry).isNone then s.lines.resting else s.runningOk c p path

/-- The operation `op` at index `p` of command `c` can be performed, and the command then fits the state at the next index. -/
structure State.Performs (c : Instr) (p : Nat) (path : Path) (op : Op) (s : State) : Prop where
  here : opAt c path p s.retry = some op
  released : op.samples = true → s.sdaOe = false
  counters : s.KeepsCounters (s.afterOp op)
  fits : ∀ path', (s.afterOp op).seq = .run c p path' → (s.afterOp op).fitsAt c (p + 1) path'

/-- The operation counts a bit or a sample. -/
def Op.counts : Op → Bool
  | .sclLowShift => true
  | .getShift => true
  | .getTest => true
  | _ => false

theorem Op.counts_of_samples {op : Op} (h : op.samples = true) : op.counts = true := by
  cases op <;> simp_all [Op.samples, Op.counts]

theorem State.KeepsCounters.afterOp {op : Op} (hop : op.counts = false) (s : State) : s.KeepsCounters (s.afterOp op) := by
  cases op with
  | sclLowShift => cases hop
  | getShift => cases hop
  | getTest => cases hop
  | delay n => exact ⟨id, id, fun _ => rfl⟩
  | dirOutLoad b => exact ⟨fun _ => Nat.zero_le 8, id, id⟩
  | dirInClear => exact ⟨fun _ => Nat.zero_le 8, id, id⟩
  | sclHighArm => exact ⟨id, fun _ => Nat.zero_le _, id⟩
  | _ => exact ⟨id, id, id⟩

/-- An operation other than WAIT_ACK's test stays on its path. -/
theorem performs_on_path {s : State} {c : Instr} {p : Nat} {path : Path} {op : Op} (hop : op ≠ .getTest)
    (hs : s.seq = .run c p path) (here : opAt c path p s.retry = some op) (released : op.samples = true → s.sdaOe = false)
    (counters : s.KeepsCounters (s.afterOp op)) (fits : (s.afterOp op).fitsAt c (p + 1) path) :
    s.Performs c p path op := by
  refine ⟨here, released, counters, fun path' h => ?_⟩
  rw [State.afterOp_seq hop, hs] at h
  cases h
  exact fits

/-- An operation that counts nothing can always be performed. -/
theorem performs_of_not_counts {s : State} {c : Instr} {p : Nat} {path : Path} {op : Op} (hop : op.counts = false)
    (hs : s.seq = .run c p path) (here : opAt c path p s.retry = some op) (fits : (s.afterOp op).fitsAt c (p + 1) path) :
    s.Performs c p path op :=
  performs_on_path (by rintro rfl; cases hop) hs here (fun h => by simp [Op.counts_of_samples h] at hop) (.afterOp hop s) fits

/-- Where a command whose list has no branch fits: inside its list it must stand as it should, at the end of it the lines must rest. -/
theorem fitsAt_straight {s : State} {c : Instr} {ops : List Op} (hops : ∀ p r, opAt c .main p r = ops[p]?) {p : Nat}
    (hp : p ≤ ops.length) (inside : p < ops.length → s.runningOk c p .main) (ended : p = ops.length → s.lines.resting) :
    s.fitsAt c p .main := by
  unfold State.fitsAt
  rw [hops]
  split
  next h => exact ended (by simp at h; omega)
  next h => exact inside (by simp at h; omega)

/-- An operation that counts nothing, in a list without a branch. -/
theorem performs_straight {s : State} {c : Instr} {ops : List Op} (hops : ∀ p r, opAt c .main p r = ops[p]?) {p : Nat}
    (hp : p < ops.length) (hop : ops[p].counts = false) (hs : s.seq = .run c p .main)
    (inside : p + 1 < ops.length → (s.afterOp ops[p]).runningOk c (p + 1) .main)
    (ended : p + 1 = ops.length → (s.afterOp ops[p]).lines.resting) : s.Performs c p .main ops[p] :=
  performs_of_not_counts hop hs ((hops _ _).trans (List.getElem?_eq_getElem hp)) (fitsAt_straight hops hp inside ended)

theorem start_performs {s : State} {p : Nat} {path : Path} (hs : s.seq = .run .start p path) (h : s.runningOk .start p path) :
    ∃ op, s.Performs .start p path op := by
  obtain ⟨rfl, hp⟩ := h
  have last : p = 7 → (s.afterOp startOps[p]).sclO = false := by rintro rfl; rfl
  refine ⟨startOps[p], performs_straight (fun _ _ => rfl) hp (by interval_cases p <;> rfl) hs (fun h => ⟨rfl, h⟩) fun h => ?_⟩
  simp [State.lines, last (Nat.succ.inj h)]

/-- `STOP_SEQ` drives SDA from its first primitive on, and at 1 from its seventh on (R79). -/
theorem stopOps_drive_sda {s : State} {q : Nat} (hq : q < stopOps.length) (hoe : 1 ≤ q → s.sdaOe = true) (hsda : 7 ≤ q → s.sdaO = true) :
    (s.afterOp stopOps[q]).sdaOe = true ∧ (6 ≤ q → (s.afterOp stopOps[q]).sdaO = true) := by
  change q < 8 at hq
  interval_cases q <;> simp_all [stopOps, State.afterOp]

theorem stopOps_not_counts {q : Nat} (hq : q < stopOps.length) : (stopOps[q]).counts = false := by
  change q < 8 at hq
  interval_cases q <;> rfl

theorem stop_performs {s : State} {p : Nat} {path : Path} (hs : s.seq = .run .stop p path) (h : s.runningOk .stop p path) :
    ∃ op, s.Performs .stop p path op := by
  obtain ⟨rfl, hp, hoe, hsda⟩ := h
  obtain ⟨hoe', hsda'⟩ := stopOps_drive_sda hp hoe hsda
  refine ⟨stopOps[p], performs_straight (fun _ _ => rfl) hp (stopOps_not_counts hp) hs
    (fun h => ⟨rfl, h, fun _ => hoe', fun h7 => hsda' (by omega)⟩) fun h _ => ⟨hoe', hsda' ?_⟩⟩
  have h7 : p = 7 := Nat.succ.inj h
  omega

theorem sendAck_performs {s : State} {n : Bool} {p : Nat} {path : Path} (hs : s.seq = .run (.sendAck n) p path)
    (h : s.runningOk (.sendAck n) p path) : ∃ op, s.Performs (.sendAck n) p path op := by
  obtain ⟨rfl, hp, hscl⟩ := h
  have hp' : p < (sendAckOps n).length := hp
  have low : 6 ≤ p → (s.afterOp (sendAckOps n)[p]).sclO = false := by
    intro h6
    interval_cases p
    · rfl
    · exact hscl le_rfl
  refine ⟨(sendAckOps n)[p], performs_straight (fun _ _ => rfl) hp' (by interval_cases p <;> rfl) hs
    (fun h => ⟨rfl, h, fun h7 => low (by omega)⟩) fun h => ?_⟩
  have h7 : p = 7 := Nat.succ.inj h
  simp [State.lines, low (by omega)]

/-! ### The byte commands -/

/-- Primitive `r` of bit `k` of SEND_BYTE (R81). -/
theorem sendByteOps_bit (b : Byte) {k r : Nat} (hk : k < 8) (hr : r < 5) :
    (sendByteOps b)[5 * k + r + 1]? = sendBitOps[r]? := by
  interval_cases k <;> interval_cases r <;> rfl

/-- Primitive `r` of bit `k` of READ_BYTE (R82). -/
theorem readByteOps_bit {k r : Nat} (hk : k < 8) (hr : r < 5) : readByteOps[5 * k + r + 1]? = readBitOps[r]? := by
  interval_cases k <;> interval_cases r <;> rfl

/-- An index between the first primitive and the last bit's end lies in some bit. -/
theorem exists_bit_place {p : Nat} (h0 : p ≠ 0) (hp : p < 41) : ∃ k r, k < 8 ∧ r < 5 ∧ p = 5 * k + r + 1 :=
  ⟨(p - 1) / 5, (p - 1) % 5, by omega, by omega, by omega⟩

/-- Primitive `r` of a bit of SEND_BYTE or READ_BYTE: the last of the five counts the bit, and none loads the shifter. -/
structure Op.InBit (r : Nat) (op : Op) : Prop where
  not_load : (∀ b, op ≠ .dirOutLoad b) ∧ op ≠ .dirInClear
  not_wait : op ≠ .sclHighArm ∧ op ≠ .getTest
  counts : op.counts = decide (r = 4)

theorem sendBitOps_inBit {r : Nat} (hr : r < 5) : (sendBitOps[r]).InBit r := by
  interval_cases r <;> constructor <;> simp [sendBitOps, Op.counts]

theorem readBitOps_inBit {r : Nat} (hr : r < 5) : (readBitOps[r]).InBit r := by
  interval_cases r <;> constructor <;> simp [readBitOps, Op.counts]

/-- BITCNT counts the bits that are over (R84). -/
theorem Op.InBit.bitcnt {r k : Nat} {op : Op} (h : op.InBit r) (hr : r < 5) (hk : k < 8) {s : State} (hb : s.bitcnt.toNat = k) :
    (s.afterOp op).bitcnt.toNat = (5 * k + r + 1) / 5 := by
  have add : (s.afterOp op).bitcnt = s.bitcnt + if op.counts then 1#4 else 0#4 := by
    obtain ⟨⟨hl, hc⟩, ⟨ha, ht⟩, -⟩ := h
    cases op <;> simp_all [State.afterOp, Op.counts]
  rw [add, h.counts]
  by_cases h4 : r = 4 <;> simp [h4] <;> omega

theorem Op.InBit.keepsCounters {r k : Nat} {op : Op} (h : op.InBit r) (hr : r < 5) (hk : k < 8) {s : State}
    (hb : s.bitcnt.toNat = k) : s.KeepsCounters (s.afterOp op) := by
  have count := h.bitcnt hr hk hb
  obtain ⟨-, ⟨ha, ht⟩, -⟩ := h
  refine ⟨fun _ => by omega, ?_, ?_⟩ <;> cases op <;> simp_all [State.afterOp]

/-- A primitive of a bit can be performed in a list without a branch, where SDA is released if it samples. -/
theorem performs_bit {s : State} {c : Instr} {ops : List Op} (hops : ∀ p r, opAt c .main p r = ops[p]?) {k r : Nat} {op : Op}
    (hop : op.InBit r) (hr : r < 5) (hk : k < 8) (hb : s.bitcnt.toNat = k) (hs : s.seq = .run c (5 * k + r + 1) .main)
    (here : ops[5 * k + r + 1]? = some op) (released : op.samples = true → s.sdaOe = false)
    (inside : (s.afterOp op).bitcnt.toNat = (5 * k + r + 1) / 5 → 5 * k + r + 2 < ops.length →
      (s.afterOp op).runningOk c (5 * k + r + 2) .main)
    (ended : 5 * k + r + 2 = ops.length → (s.afterOp op).lines.resting) : s.Performs c (5 * k + r + 1) .main op :=
  performs_on_path hop.not_wait.2 hs ((hops _ _).trans here) released (hop.keepsCounters hr hk hb)
    (fitsAt_straight hops (List.getElem?_eq_some_iff.mp here).1 (inside (hop.bitcnt hr hk hb)) ended)

theorem sendByte_performs {s : State} {b : Byte} {p : Nat} {path : Path} (hs : s.seq = .run (.sendByte b) p path)
    (h : s.runningOk (.sendByte b) p path) : ∃ op, s.Performs (.sendByte b) p path op := by
  obtain ⟨rfl, hp, hb⟩ := h
  rcases eq_or_ne p 0 with rfl | h0
  · exact ⟨.dirOutLoad b, performs_straight (ops := sendByteOps b) (fun _ _ => rfl) (Nat.zero_lt_succ _) rfl hs
      (fun h => ⟨rfl, h, fun _ => rfl⟩) nofun⟩
  · obtain ⟨k, r, hk, hr, rfl⟩ := exists_bit_place h0 hp
    have last : r = 4 → (s.afterOp sendBitOps[r]).sclO = false := by rintro rfl; rfl
    refine ⟨sendBitOps[r], performs_bit (ops := sendByteOps b) (fun _ _ => rfl) (sendBitOps_inBit hr) hr hk ?_ hs
      ((sendByteOps_bit b hk hr).trans (List.getElem?_eq_getElem hr)) ?_ (fun hb h => ⟨rfl, h, fun _ => hb⟩) fun h => ?_⟩
    · rw [hb (by omega)]
      omega
    · interval_cases r <;> simp [sendBitOps, Op.samples]
    · have h41 : 5 * k + r + 2 = 41 := h
      simp [State.lines, last (by omega)]

theorem readByte_performs {s : State} {p : Nat} {path : Path} (hs : s.seq = .run .readByte p path)
    (h : s.runningOk .readByte p path) : ∃ op, s.Performs .readByte p path op := by
  obtain ⟨rfl, hp, hoe, hb⟩ := h
  rcases eq_or_ne p 0 with rfl | h0
  · exact ⟨.dirInClear, performs_straight (ops := readByteOps) (fun _ _ => rfl) (by decide) rfl hs
      (fun h => ⟨rfl, h, fun _ => rfl, fun _ => rfl⟩) nofun⟩
  rcases eq_or_ne p 41 with rfl | h41
  · exact ⟨.setScl false, performs_straight (ops := readByteOps) (fun _ _ => rfl) (by decide) rfl hs nofun (fun _ => nofun)⟩
  · obtain ⟨k, r, hk, hr, rfl⟩ := exists_bit_place h0 (by omega)
    have kept : (s.afterOp readBitOps[r]).sdaOe = s.sdaOe := by interval_cases r <;> rfl
    refine ⟨readBitOps[r], performs_bit (ops := readByteOps) (fun _ _ => rfl) (readBitOps_inBit hr) hr hk ?_ hs
      ((readByteOps_bit hk hr).trans (List.getElem?_eq_getElem hr)) (fun _ => hoe (by omega))
      (fun hb h => ⟨rfl, h, fun _ => kept.trans (hoe (by omega)), fun _ => hb⟩) fun h => ?_⟩
    · rw [hb (by omega)]
      omega
    · have h42 : 5 * k + r + 2 = 42 := h
      omega

/-! ### WAIT_ACK -/

/-- Before its branch WAIT_ACK's list has no end. -/
theorem fitsAt_waitAck_main {s : State} {p : Nat} (h : s.runningOk .waitAck p .main) : s.fitsAt .waitAck p .main := by
  unfold State.fitsAt
  split
  next hn =>
    simp only [opAt, waitAckOp] at hn
    split at hn
    next hp => simp [waitAckEntryOps] at hn; omega
    next => simp at hn
  next => exact h

/-- WAIT_ACK's four entry primitives release SDA and arm RETRY (R85). -/
theorem waitAck_entry_performs {s : State} {p : Nat} (hs : s.seq = .run .waitAck p .main) (hp : p < 4)
    (h : s.runningOk .waitAck p .main) : s.Performs .waitAck p .main waitAckEntryOps[p] := by
  refine performs_of_not_counts (by interval_cases p <;> rfl) hs ?_ (fitsAt_waitAck_main ?_)
  · simp [opAt, waitAckOp, hp, List.getElem?_eq_getElem (l := waitAckEntryOps) hp]
  · obtain ⟨hoe, hsda, -⟩ := h
    interval_cases p <;> simp_all [State.runningOk, waitAckEntryOps, State.afterOp, Config.nRetry]

/-- The delay of WAIT_ACK's loop. -/
theorem waitAck_delay_performs {s : State} {p : Nat} (hs : s.seq = .run .waitAck p .main) (hp : 4 ≤ p) (heven : p % 2 = 0)
    (h : s.runningOk .waitAck p .main) : s.Performs .waitAck p .main (.delay 1) := by
  obtain ⟨hoe, hsda, hretry⟩ := h
  obtain ⟨hr, hlt⟩ := hretry hp
  refine performs_of_not_counts rfl hs (by simp [opAt, waitAckOp, Nat.not_lt.mpr hp, heven]) (fitsAt_waitAck_main ?_)
  exact ⟨fun _ => hoe (by omega), fun _ => hsda (by omega), fun _ => ⟨by simp only [State.afterOp, State.delay_retry]; omega, hlt⟩⟩

/-- WAIT_ACK at its branch: `path` was taken on the last of `retry` samples. -/
theorem fitsAt_ackBranch {s : State} {retry : Nat} (hr : s.retry = retry + 1) (hlt : retry < Config.nRetry)
    (hoe : s.sdaOe = false) (hsda : s.sdaO = true) (b : Bool) :
    s.fitsAt .waitAck (branchIndex (retry + 1)) (ackBranch Config.nRetry (retry + 1) b) := by
  have inList : ∀ path, path ≠ .main → (opAt .waitAck path (branchIndex (retry + 1)) s.retry).isNone = false := by
    intro path hpath
    cases path <;> simp_all [opAt, waitAckOp, ackedOps, timedOutOps, stopOps]
  unfold ackBranch
  split
  · rw [State.fitsAt, inList .acked nofun]
    exact ⟨by omega, .inl (by rw [hr])⟩
  split
  next hmore =>
    exact fitsAt_waitAck_main ⟨fun _ => hoe, fun _ => hsda, fun _ => ⟨by unfold branchIndex; omega, by omega⟩⟩
  next hdone =>
    rw [State.fitsAt, inList .timedOut nofun]
    simp [State.runningOk, hr]
    omega

/-- The test of WAIT_ACK's loop samples a released SDA and takes the branch (R85, R87, R93). -/
theorem waitAck_test_performs {s : State} {p : Nat} (hs : s.seq = .run .waitAck p .main) (hp : 4 ≤ p) (hodd : p % 2 = 1)
    (h : s.runningOk .waitAck p .main) : s.Performs .waitAck p .main .getTest := by
  obtain ⟨hoe, hsda, hretry⟩ := h
  obtain ⟨hr, hlt⟩ := hretry hp
  have hnext : p + 1 = branchIndex (s.retry + 1) := by unfold branchIndex; omega
  refine ⟨by simp [opAt, waitAckOp, Nat.not_lt.mpr hp, hodd], fun _ => hoe (by omega), ?_, fun path' hq => ?_⟩
  · constructor <;> simp [State.afterOp, testAck_eq_withSeq]
    omega
  · obtain rfl : ackBranch Config.nRetry (s.retry + 1) (s.peerBit 0) = path' := by
      simpa [State.afterOp, testAck_eq_withSeq, hs, Seq.along] using hq
    rw [hnext]
    exact fitsAt_ackBranch (by simp [State.afterOp, testAck_eq_withSeq]) hlt
      (by simpa [State.afterOp, testAck_eq_withSeq] using hoe (by omega))
      (by simpa [State.afterOp, testAck_eq_withSeq] using hsda (by omega)) _

/-- WAIT_ACK from label ACKED. -/
theorem waitAck_acked_performs {s : State} {p : Nat} (hs : s.seq = .run .waitAck p .acked)
    (h : s.runningOk .waitAck p .acked) : ∃ op, s.Performs .waitAck p .acked op := by
  obtain ⟨hr, rfl | ⟨rfl, hscl⟩⟩ := h
  · refine ⟨.setScl false, performs_of_not_counts rfl hs (by simp [opAt, waitAckOp, ackedOps]) ?_⟩
    simp [State.fitsAt, opAt, waitAckOp, ackedOps, State.afterOp, State.runningOk, hr]
  · refine ⟨.dirOut, performs_of_not_counts rfl hs (by simp [opAt, waitAckOp, ackedOps]) ?_⟩
    simp [State.fitsAt, opAt, waitAckOp, ackedOps, State.afterOp, Nat.add_assoc, State.lines, hscl]

/-- WAIT_ACK from label TIMEOUT: its `STOP_SEQ` (R85). -/
theorem waitAck_timedOut_performs {s : State} {p : Nat} (hs : s.seq = .run .waitAck p .timedOut)
    (h : s.runningOk .waitAck p .timedOut) : ∃ op, s.Performs .waitAck p .timedOut op := by
  obtain ⟨hr, hle, hlt, hoe, hsda⟩ := h
  obtain ⟨q, rfl⟩ := Nat.exists_eq_add_of_le hle
  have h8 : q < 8 := by omega
  have hq : q < stopOps.length := h8
  obtain ⟨hoe', hsda'⟩ := stopOps_drive_sda hq (fun _ => hoe (by omega)) (fun _ => hsda (by omega))
  have kept : (s.afterOp stopOps[q]).retry = s.retry := by interval_cases q <;> rfl
  refine ⟨stopOps[q], performs_of_not_counts (stopOps_not_counts hq) hs ?_ ?_⟩
  · simp [opAt, waitAckOp, timedOutOps, List.getElem?_eq_getElem (l := stopOps) hq]
  · unfold State.fitsAt
    rw [show opAt .waitAck .timedOut (branchIndex s.retry + q + 1) (s.afterOp stopOps[q]).retry = stopOps[q + 1]? by
      simp [opAt, waitAckOp, timedOutOps, kept, Nat.add_assoc]]
    split
    next hend =>
      have h8 : 8 ≤ q + 1 := by simp [stopOps] at hend; omega
      exact fun _ => ⟨hoe', hsda' (by omega)⟩
    next hmore =>
      have h8 : q + 1 < 8 := by simp [stopOps] at hmore; omega
      simp only [State.runningOk, kept]
      exact ⟨hr, by omega, by omega, fun _ => hoe', fun h7 => hsda' (by omega)⟩

theorem waitAck_performs {s : State} {p : Nat} {path : Path} (hs : s.seq = .run .waitAck p path)
    (h : s.runningOk .waitAck p path) : ∃ op, s.Performs .waitAck p path op := by
  cases path with
  | acked => exact waitAck_acked_performs hs h
  | timedOut => exact waitAck_timedOut_performs hs h
  | main =>
    rcases Nat.lt_or_ge p 4 with h4 | h4
    · exact ⟨_, waitAck_entry_performs hs h4 h⟩
    rcases Nat.mod_two_eq_zero_or_one p with heven | hodd
    · exact ⟨_, waitAck_delay_performs hs h4 heven h⟩
    · exact ⟨_, waitAck_test_performs hs h4 hodd h⟩

/-- Where the invariant says a command can stand, its next primitive can be performed and leads to such a place again, or to the
command's end on resting lines. -/
theorem runningOk_performs {s : State} {c : Instr} {p : Nat} {path : Path} (hs : s.seq = .run c p path)
    (h : s.runningOk c p path) : ∃ op, s.Performs c p path op := by
  cases c with
  | start => exact start_performs hs h
  | stop => exact stop_performs hs h
  | sendByte b => exact sendByte_performs hs h
  | waitAck => exact waitAck_performs hs h
  | sendAck n => exact sendAck_performs hs h
  | readByte => exact readByte_performs hs h

end Sys2Proof.Machine
end

section
/-!
PROOFS. Running a command: each controller step is one unit of time, and the command ends within its bound.
-/

namespace Sys2Proof.Machine

/-- Every command can stand at its first primitive, whatever the state. -/
theorem accept_runningOk (i : Instr) (s : State) : (s.accept i).runningOk i 0 .main := by
  cases i <;> simp [State.runningOk]

/-- SEQ and BUSY are no part of where a command stands. -/
theorem runningOk_withSeq {c : Instr} {p : Nat} {path : Path} {s : State} (q : Seq) :
    (s.withSeq q).runningOk c p path ↔ s.runningOk c p path := by
  cases c <;> cases path <;> rfl

/-- The controller step of a running command that stands where it should: the command ends on resting lines, or it stands where it
should at the next index. -/
theorem controllerStep_of_runningOk {s : State} {c : Instr} {p : Nat} {path : Path} (hs : s.seq = .run c p path)
    (h : s.runningOk c p path) :
    ∃ t, controllerStep s = .next t ∧ t.now = s.now + 1 ∧ s.KeepsCounters t ∧
      ((t.seq = .idle ∧ t.lines.resting) ∨ ∃ path', t.seq = .run c (p + 1) path' ∧ t.runningOk c (p + 1) path') := by
  obtain ⟨op, hop⟩ := runningOk_performs hs h
  obtain ⟨path', hp⟩ := State.afterOp_seq_run hs op
  have fits := hop.fits path' hp
  unfold State.fitsAt at fits
  refine ⟨(s.afterOp op).moveOn, ?_, ?_⟩
  · rw [controllerStep_run hs hop.here, doOp_next_iff.mpr ⟨hop.released, rfl⟩, andThen_of_next]
  rcases moveOn_cases hp with ⟨hn, e⟩ | ⟨hn, e⟩
  · rw [hn, if_pos rfl] at fits
    rw [e]
    exact ⟨by simp, hop.counters.trans (by constructor <;> simp), .inl ⟨by simp, by simpa [State.lines] using fits⟩⟩
  · rw [hn, if_neg (by decide)] at fits
    rw [e]
    exact ⟨s.afterOp_now op, hop.counters.trans ⟨id, id, id⟩, .inr ⟨path', rfl, (runningOk_withSeq _).mpr fits⟩⟩

/-- Controller steps of a running command that stands where it should: each takes one unit of time, up to its end. -/
theorem runSteps_of_runningOk (n : Nat) {s : State} {c : Instr} {p : Nat} {path : Path} (hs : s.seq = .run c p path)
    (h : s.runningOk c p path) :
    ∃ t, runSteps n s = .next t ∧ s.KeepsCounters t ∧
      ((t.seq = .idle ∧ t.busy = false ∧ t.now ≤ s.now + n) ∨ (t.now = s.now + n ∧ ∃ path', t.runningOk c (p + n) path')) := by
  induction n generalizing s p path with
  | zero => exact ⟨s, rfl, ⟨id, id, id⟩, .inr ⟨rfl, path, h⟩⟩
  | succ n ih =>
    obtain ⟨u, hu, hnow, hkeep, ⟨hq, -⟩ | ⟨path', hq, hok⟩⟩ := controllerStep_of_runningOk hs h
    · refine ⟨u, by rw [runSteps_succ_run hs, hu, andThen_of_next, runSteps_idle hq], hkeep, .inl ⟨hq, ?_, by omega⟩⟩
      rcases (controllerStep_onRunOf hs hu).ended_or_running with ⟨-, hb⟩ | ⟨⟨_, _, hrun⟩, -⟩
      · exact hb
      · cases hq.symm.trans hrun
    · obtain ⟨t, ht, hkeep', hend⟩ := ih hq hok
      refine ⟨t, by rw [runSteps_succ_run hs, hu, andThen_of_next, ht], hkeep.trans hkeep', ?_⟩
      rwa [hnow, Nat.add_right_comm _ 1 n, Nat.add_right_comm p 1 n] at hend

/-- No command stands past the number of primitives it can take (R118). -/
theorem runningOk_lt_maxPrimitives {s : State} {c : Instr} {p : Nat} {path : Path} (h : s.runningOk c p path)
    (hr : c = .waitAck → s.retry ≤ Config.nRetry) : p < maxPrimitives c := by
  cases c with
  | start => exact h.2
  | stop => exact h.2.1
  | sendByte b => exact h.2.1
  | sendAck n => exact h.2.1
  | readByte => exact h.2.1
  | waitAck =>
    have hr := hr rfl
    simp only [maxPrimitives]
    cases path with
    | main =>
      obtain ⟨-, -, hp⟩ := h
      omega
    | acked =>
      obtain ⟨-, hp⟩ := h
      unfold branchIndex at hp
      omega
    | timedOut =>
      obtain ⟨-, -, hp, -⟩ := h
      unfold branchIndex at hp
      omega

/-- A running command that stands where it should ends within the primitives it can take. -/
theorem runSteps_ends {s : State} {c : Instr} {p : Nat} {path : Path} (hs : s.seq = .run c p path) (h : s.runningOk c p path)
    (hr : c = .waitAck → s.retry ≤ Config.nRetry) {n : Nat} (hn : maxPrimitives c ≤ p + n) :
    ∃ t, runSteps n s = .next t ∧ t.seq = .idle ∧ t.busy = false := by
  obtain ⟨t, ht, hkeep, ⟨hq, hb, -⟩ | ⟨-, path', hok⟩⟩ := runSteps_of_runningOk n hs h
  · exact ⟨t, ht, hq, hb⟩
  · have := runningOk_lt_maxPrimitives hok fun hc => hkeep.retry (hr hc)
    omega

/-- A command that runs alone ends. WAIT_ACK arms RETRY in its entry, so its value before does not matter. -/
theorem exec_ends (i : Instr) {s : State} (h : s.ready) : ∃ t, exec i s = .next t ∧ t.seq = .idle ∧ t.busy = false := by
  rw [exec_eq_carryOut, carryOut_ready h]
  by_cases hi : i = .waitAck
  · subst hi
    rw [show maxPrimitives .waitAck = (2 * Config.nRetry + 8) + 4 from rfl, runSteps_entry]
    refine runSteps_ends (State.afterEntry_seq _) ?_ (fun _ => Nat.zero_le _) (by simp [branchIndex, maxPrimitives]; omega)
    exact ⟨fun _ => rfl, fun _ => rfl, fun _ => ⟨rfl, Nat.succ_pos _⟩⟩
  · exact runSteps_ends rfl (accept_runningOk i s) (fun hc => absurd hc hi) (Nat.zero_add _).ge

/-- R17. Settles O34: acceptance takes one unit of time, and each primitive after it one more. -/
theorem arrivalCutsTheCommandAtItsTime : Obligations.ArrivalCutsTheCommandAtItsTime := by
  intro i s x rest n hr hb hg hlt
  have hnow := now_accept i s
  have hsteps : (s.accept i).stepsAlone i = n - (s.now + 1) := by simp [State.stepsAlone, hg, hnow]
  rw [exec_eq_carryOut, carryOut_accepts hr hb, hsteps]
  obtain ⟨t, ht, -, ⟨hq, hb, hle⟩ | ⟨heq, -⟩⟩ := runSteps_of_runningOk (n - (s.now + 1)) rfl (accept_runningOk i s)
  · exact ⟨t, ht, .inr ⟨hq, hb, by omega⟩⟩
  · exact ⟨t, ht, .inl (by omega)⟩

end Sys2Proof.Machine
end

section
/-!
PROOFS. The machine's invariant: every step keeps it, no step faults from it, and the results have one writer.
-/

namespace Sys2Proof.Machine

/-- The state after reset has the invariant. Settles O48: every field is at its reset value and the bus is idle. -/
theorem invariantHoldsAtReset : Obligations.InvariantHoldsAtReset := by
  unfold Obligations.InvariantHoldsAtReset
  simp [State.Inv, State.seqOk, State.reset, State.lines]

/-- Under the invariant a running command has RST released, is the latched word's, and stands where it should. -/
theorem State.Inv.running {s : State} (h : s.Inv) {c : Instr} {p : Nat} {path : Path} (hs : s.seq = .run c p path) :
    s.rst = false ∧ s.busy = true ∧ decode s.cmdw = .command c ∧ s.illegal = false ∧ s.runningOk c p path := by
  obtain ⟨hbusy, -, -, -, hrst, hseq⟩ := h
  rw [State.seqOk, hs] at hseq
  obtain ⟨hill, hdec, hok⟩ := hseq
  refine ⟨?_, hbusy.mpr (by rw [hs]; nofun), hdec, hill, hok⟩
  by_contra hr
  obtain ⟨-, -, -, -, -, -, -, -, hidle, -⟩ := hrst (by simpa using hr)
  cases hs.symm.trans hidle

/-- R24: no controller step samples a driven SDA. -/
theorem State.Inv.controllerStep_not_fault {s : State} (h : s.Inv) (r : Fault) : controllerStep s ≠ .fault r := by
  cases hs : s.seq with
  | idle => rw [controllerStep_idle hs]; nofun
  | run c p path =>
    obtain ⟨-, -, -, -, hok⟩ := h.running hs
    obtain ⟨t, ht, -⟩ := controllerStep_of_runningOk hs hok
    rw [ht]
    nofun

/-- Every controller step keeps the invariant. -/
theorem State.Inv.controllerStep {s t : State} (h : s.Inv) (ht : controllerStep s = .next t) : t.Inv := by
  cases hs : s.seq with
  | idle =>
    rw [controllerStep_idle hs] at ht
    cases ht
    exact h
  | run c p path =>
    obtain ⟨hrst, hbusy, hdec, hill, hok⟩ := h.running hs
    obtain ⟨-, hbit, hretry, hdt, -⟩ := h
    have hrun := controllerStep_onRunOf hs ht
    obtain ⟨u, hu, -, hkeep, hend⟩ := controllerStep_of_runningOk hs hok
    cases hu.symm.trans ht
    have hkept := hrun.kept
    refine ⟨?_, hkeep.bitcnt hbit, hkeep.retry hretry, hkeep.dtimer hdt, fun hr => ?_, ?_⟩
    · rcases hrun.ended_or_running with ⟨hq, hb⟩ | ⟨⟨_, _, hq⟩, -, -, hb⟩
      · simp [hq, hb]
      · simp [hq, hb, hbusy]
    · cases (hkept.rst.trans hrst).symm.trans hr
    · unfold State.seqOk
      rcases hend with ⟨hq, hrest⟩ | ⟨path', hq, hok'⟩
      · rw [hq]
        exact hrest
      · rw [hq]
        exact ⟨hkept.illegal.trans hill, hkept.cmdw ▸ hdec, hok'⟩

/-- Accepting a legal word keeps the invariant. -/
theorem State.Inv.accept {s : State} (h : s.Inv) (hr : s.rst = false) {i : Instr} {x : PortWrite}
    (hx : decode x.word = .command i) : ((s.latch x).accept i).Inv := by
  obtain ⟨-, hbit, hretry, hdt, -, -⟩ := h
  refine ⟨by simp, hbit, hretry, hdt, fun hr' => ?_, rfl, hx, accept_runningOk i (s.latch x)⟩
  cases hr.symm.trans hr'

/-- Rejecting an illegal word keeps the invariant. -/
theorem State.Inv.rejectWord {s : State} (h : s.Inv) (hr : s.rst = false) (hs : s.seq = .idle) (x : PortWrite) :
    (s.latch x).rejectWord.Inv := by
  obtain ⟨hbusy, hbit, hretry, hdt, -, hseq⟩ := h
  refine ⟨hbusy, hbit, hretry, hdt, fun hr' => ?_, ?_⟩
  · cases hr.symm.trans hr'
  · unfold State.seqOk at hseq ⊢
    simp only [hs] at hseq
    simpa [hs, State.lines] using hseq

/-- What stands at the port is no part of the invariant while RST is released. -/
theorem State.Inv.withHeld {s : State} (h : s.Inv) (hr : s.rst = false) (held : List PortWrite) (picks : Nat) :
    ({ s with held := held, picks := picks } : State).Inv := by
  obtain ⟨hbusy, hbit, hretry, hdt, -, hseq⟩ := h
  exact ⟨hbusy, hbit, hretry, hdt, fun hr' => (by cases hr.symm.trans hr'), hseq⟩

/-- What a level at the RST input does (R104). -/
theorem setRst_cases (level : Bool) (s : State) :
    (level = true ∧ s.rst = false ∧ s.setRst level = s.takeReset) ∨ (level = true ∧ s.rst = true ∧ s.setRst level = s) ∨
    (level = false ∧ s.setRst level = { s with rst := false }) := by
  cases level <;> cases hr : s.rst <;> simp [State.setRst, hr]

/-- A reset gives the invariant to any state (R39, R104). -/
theorem takeReset_inv (s : State) : s.takeReset.Inv := by
  simp [State.Inv, State.atReset, State.seqOk, State.lines]

/-- The RST input keeps the invariant. -/
theorem State.Inv.setRst {s : State} (h : s.Inv) (level : Bool) : (s.setRst level).Inv := by
  rcases setRst_cases level s with ⟨-, -, e⟩ | ⟨-, -, e⟩ | ⟨-, e⟩ <;> rw [e]
  · exact takeReset_inv s
  · exact h
  · obtain ⟨hbusy, hbit, hretry, hdt, -, hseq⟩ := h
    exact ⟨hbusy, hbit, hretry, hdt, nofun, hseq⟩

/-- Every input keeps the invariant. -/
theorem State.Inv.arrive {s t : State} (h : s.Inv) {x : Input} (ht : s.arrive x = .next t) : t.Inv := by
  rcases arrive_cases ht with ⟨level, -, rfl⟩ | ⟨hr, agent, idx, size, -, rfl⟩ | ⟨hr, agent, idx, size, w, -, rfl⟩
  · exact h.setRst level
  · exact h
  · unfold State.memWrite
    split
    · exact h.withHeld hr _ _
    · exact h

/-- From a state with the invariant, a step is an input's effect, or controller steps from a state with the invariant that has the
results of before. -/
theorem step_arrives_or_runs {s : State} (h : s.Inv) :
    (∃ (a : Arrival) (rest : List Arrival), step s = ({ s with agenda := rest } : State).arrive a.input) ∨
    ∃ n v, step s = runSteps n v ∧ v.Inv ∧ v.nack = s.nack ∧ v.rxbyte = s.rxbyte := by
  rcases step_cases s with ⟨a, rest, -, -, e⟩ | ⟨-, -, e⟩ | ⟨-, -, c, p, path, -, e⟩ | ⟨-, -, -, -, e⟩ |
    ⟨-, hr, hs, x, u, hu, e⟩
  · exact .inl ⟨a, rest, e⟩
  · exact .inr ⟨0, s, e, h, rfl, rfl⟩
  · exact .inr ⟨_, s, e, h, rfl, rfl⟩
  · exact .inr ⟨0, s, e, h, rfl, rfl⟩
  · obtain ⟨l, r, k, -, rfl⟩ := takeHeld_cases hu
    have hb : s.busy = false := by
      obtain ⟨hbusy, -⟩ := h
      simpa [hs] using hbusy
    have hport := h.withHeld hr (l ++ r) k
    rw [e]
    rcases acceptWrite_cases exec x { s with held := l ++ r, picks := k } with ⟨i, hx, e'⟩ | ⟨-, -, e'⟩
    · rw [exec_eq_carryOut, carryOut_accepts (by exact hr) (by exact hb)] at e'
      exact .inr ⟨_, _, e', hport.accept hr hx, rfl, rfl⟩
    · exact .inr ⟨0, _, e', hport.rejectWord hr hs x, rfl, rfl⟩

/-- R27, R33, R35, R84, R104, R109, R24. Settles O49: inputs keep the invariant, and so does every controller step of a run. -/
theorem stepKeepsTheInvariant : Obligations.StepKeepsTheInvariant := by
  intro s t h ht
  rcases step_arrives_or_runs h with ⟨a, rest, e⟩ | ⟨n, v, e, hv, -, -⟩
  · have hrest : ({ s with agenda := rest } : State).Inv := h
    exact hrest.arrive (e.symm.trans ht)
  · exact runSteps_keeps (P := State.Inv) (fun _ _ => .controllerStep) n v t hv (e.symm.trans ht)

/-- R24. Settles O50: inputs never fault, and no controller step from a state with the invariant does. -/
theorem sdaIsNeverSampledWhileDriven : Obligations.SdaIsNeverSampledWhileDriven := by
  intro s r h hf
  rcases step_arrives_or_runs h with ⟨a, rest, e⟩ | ⟨n, v, e, hv, -, -⟩
  · exact arrive_not_fault _ _ r (e.symm.trans hf)
  · exact runSteps_no_fault (P := State.Inv) (fun _ _ => .controllerStep) (fun _ r h => h.controllerStep_not_fault r) n v r hv
      (e.symm.trans hf)

/-- An input that leaves RST released leaves the results alone. -/
theorem arrive_keeps_results {s t : State} {x : Input} (h : s.arrive x = .next t) (hr : t.rst = false) :
    t.nack = s.nack ∧ t.rxbyte = s.rxbyte := by
  rcases arrive_cases h with ⟨level, -, rfl⟩ | ⟨-, agent, idx, size, -, rfl⟩ | ⟨-, agent, idx, size, w, -, rfl⟩
  · rcases setRst_cases level s with ⟨-, -, e⟩ | ⟨-, -, e⟩ | ⟨-, e⟩ <;> rw [e] at hr ⊢
    · cases hr
    · exact ⟨rfl, rfl⟩
    · exact ⟨rfl, rfl⟩
  · exact ⟨rfl, rfl⟩
  · unfold State.memWrite
    split <;> exact ⟨rfl, rfl⟩

/-- R28, R31. Settles O52: a run commits only its own command's result, at its end. -/
theorem resultsHaveOneWriter : Obligations.ResultsHaveOneWriter := by
  intro s t h ht hr
  rcases step_arrives_or_runs h with ⟨a, rest, e⟩ | ⟨n, v, e, hv, hn, hx⟩
  · obtain ⟨hn, hx⟩ := arrive_keeps_results (e.symm.trans ht) hr
    exact ⟨fun k => absurd hn k, fun k => absurd hx k⟩
  rw [e] at ht
  rw [← hn, ← hx]
  cases hs : v.seq with
  | idle =>
    rw [runSteps_idle hs] at ht
    cases ht
    exact ⟨fun k => absurd rfl k, fun k => absurd rfl k⟩
  | run c p path =>
    obtain ⟨-, -, hdec, -, -⟩ := hv.running hs
    have hrun := runSteps_onRunOf hs ht
    have hkept := hrun.kept
    rw [hkept.cmdw, hdec]
    rcases hrun.ended_or_running with ⟨hq, -⟩ | ⟨-, hn', hx', -⟩
    · refine ⟨fun k => ⟨hq, ?_⟩, fun k => ⟨hq, ?_⟩⟩
      · rw [show c = .waitAck from not_not.mp fun hc => k (hkept.nack hc)]
      · rw [show c = .readByte from not_not.mp fun hc => k (hkept.rxbyte hc)]
    · exact ⟨fun k => absurd hn' k, fun k => absurd hx' k⟩

end Sys2Proof.Machine
end

section
/-!
PROOFS. The registers, and the steps of a running, an accepting and a waiting controller.
-/

namespace Sys2Proof.Machine

/-! ## The registers -/

/-- The layout of STATUS (R26): six flags below ten reserved bits. -/
theorem status_getLsbD (s : State) (k : Nat) :
    s.status.getLsbD k = ([s.busy, s.nack, s.illegal, s.sdaOe, s.sclO, s.sdaO][k]?).getD false := by
  unfold State.status
  change BitVec.getLsbD (w := 10 + 1 + 1 + 1 + 1 + 1 + 1) _ k = _
  simp only [BitVec.getLsbD_append]
  rcases k with _ | _ | _ | _ | _ | _ | k <;> simp

/-- BUSY is bit 0 of STATUS (R27). -/
theorem status_busy {s : State} (h : s.busy = true) : s.status.getLsbD 0 = true := (status_getLsbD s 0).trans h

/-- R26, R30. Settles O12 from the layout of STATUS. -/
theorem statusFields : Obligations.StatusFields := fun s k =>
  ⟨status_getLsbD s 0, status_getLsbD s 1, status_getLsbD s 2, status_getLsbD s 3, status_getLsbD s 4, status_getLsbD s 5,
    fun hk => by
      obtain ⟨j, rfl⟩ := Nat.exists_eq_add_of_le' hk
      exact status_getLsbD s (j + 6)⟩

/-- R39, R104. Settles O45: each value is the one `State.reset` writes. -/
theorem resetHoldsTheTableValues : Obligations.ResetHoldsTheTableValues := by
  unfold Obligations.ResetHoldsTheTableValues
  decide

/-! ## Steps of a running, an accepting and a waiting controller -/

/-- With no input due, a step of a running command is the controller's. -/
theorem step_of_running {s : State} {c : Instr} {p : Nat} {path : Path} (hr : s.rst = false) (hs : s.seq = .run c p path)
    (hd : s.nothingDue = true) : step s = runSteps (s.stepsAlone c) s := by
  rcases step_cases s with ⟨a, rest, hg, hdue, -⟩ | ⟨-, hr', -⟩ | ⟨-, -, c', p', path', hs', e⟩ | ⟨-, -, hs', -⟩ |
    ⟨-, -, hs', -⟩
  · simp [State.nothingDue, hg, hdue] at hd
  · cases hr.symm.trans hr'
  · cases hs.symm.trans hs'
    exact e
  · cases hs.symm.trans hs'
  · cases hs.symm.trans hs'

/-- An input that waits for the controller is not due while a command runs. -/
theorem nothingDue_of_undisturbed {s : State} (hr : s.rst = false) (hs : s.seq ≠ .idle) (h : s.undisturbed = true) :
    s.nothingDue = true := by
  unfold State.undisturbed at h
  unfold State.nothingDue
  split
  · rfl
  next a rest hg =>
    have ha : a.time = none := by simpa [hg] using h
    simp [State.due, State.quiet, hr, hs, ha]

/-- R18, R60, R85, R117. Settles O20: alone from its start, and going on from wherever the invariant lets a command stand. -/
theorem everyCommandEnds : Obligations.EveryCommandEnds := by
  refine ⟨fun i s h => exec_ends i h, fun s h hr hs hu => ?_⟩
  have ⟨_, _, hretry, _⟩ := h
  cases hq : s.seq with
  | idle => exact absurd hq hs
  | run c p path =>
    obtain ⟨-, -, -, -, hok⟩ := h.running hq
    obtain ⟨t, ht, hidle, hb⟩ := runSteps_ends hq hok (fun _ => hretry) (Nat.le_add_left (maxPrimitives c) p)
    rw [step_of_running hr hq (nothingDue_of_undisturbed hr hs hu), stepsAlone_undisturbed hu]
    exact ⟨t, ht, hidle, hb, (runSteps_onRunOf hq ht).kept.held⟩

/-- R20, R105. Settles O55: with nothing held the controller has no move. -/
theorem theIdleControllerWaits : Obligations.TheIdleControllerWaits := by
  intro s hr hs hheld hd
  rcases step_cases s with ⟨a, rest, hg, hdue, -⟩ | ⟨-, -, e⟩ | ⟨-, -, c, p, path, hs', -⟩ | ⟨-, -, -, -, e⟩ |
    ⟨-, -, -, x, u, hu, -⟩
  · simp [State.nothingDue, hg, hdue] at hd
  · exact e
  · cases hs.symm.trans hs'
  · exact e
  · cases ((takeHeld_none_iff s).mpr hheld).symm.trans hu

/-- R60. Settles O53: the input one step ahead leaves no step for the primitives. -/
theorem acceptanceComesBeforeTheFirstPrimitive : Obligations.AcceptanceComesBeforeTheFirstPrimitive := by
  intro s a w i x rest hr hb hs hheld hdec hg
  have hstep : step s = (({ s with held := [] } : State).latch ⟨a, w⟩).carryOut i := by
    have hdue : s.due ⟨some (s.now + 1), x⟩ = false := by simp [State.due, State.quiet, hr, hheld]
    simp [step, State.nextMove, hg, hdue, State.controllerMove, hr, hs, State.takeHeld, hheld, State.acceptWrite, hdec,
      exec_eq_carryOut]
  have hacc := carryOut_accepts (s := ({ s with held := [] } : State).latch ⟨a, w⟩) hr hb i
  have hzero : ((({ s with held := [] } : State).latch ⟨a, w⟩).accept i).stepsAlone i = 0 := by
    simp [State.stepsAlone, hg, State.now]
  rw [hzero, runSteps_zero] at hacc
  refine ⟨_, hstep.trans hacc, rfl, ?_, status_busy rfl, rfl⟩
  simp [State.due, State.now]

end Sys2Proof.Machine
end

section
/-!
PROOFS. The primitives and the wire levels, and the addresses of the registers.
-/

namespace Sys2Proof.Machine

/-! ## Primitives and wire -/

/-- The SDA wire as a wired-AND (R51): the level driven, high where SDA is released, and no peer pulling low. -/
theorem sdaWire_eq (s : State) (pull : Bool) : s.sdaWire pull = ((!s.sdaOe || s.sdaO) && !pull) := by
  unfold State.sdaWire
  cases s.sdaOe <;> cases s.sdaO <;> cases pull <;> rfl

/-- R43, R44. Settles O7: each direction primitive writes `SDA_OE` alone, and the wired-AND says what reaches the wire. -/
theorem directionPrimitives : Obligations.DirectionPrimitives := by
  intro s pull
  exact ⟨rfl, by simp [sdaWire_eq], rfl, by simp [sdaWire_eq]⟩

/-- R45, R46. Settles O8: each level primitive writes its latch alone, and a released SDA takes nothing from its latch. -/
theorem levelPrimitives : Obligations.LevelPrimitives := by
  intro s v pull
  exact ⟨rfl, rfl, fun h => by simp [sdaWire_eq, h], fun h => by simp [sdaWire_eq, h]⟩

/-- R47. Settles O9 by the two directions of SDA. -/
theorem getSamplesTheDraw : Obligations.GetSamplesTheDraw := fun _ use =>
  ⟨fun h => getSda_driven h use, fun h => getSda_released h use⟩

/-- R50, R51. Settles O10: a wired-AND is low where one of its sides pulls low. -/
theorem wireLevels : Obligations.WireLevels := by
  intro s pull
  refine ⟨rfl, ?_⟩
  rw [sdaWire_eq]
  cases s.sdaOe <;> cases s.sdaO <;> cases pull <;> decide

/-! ## Addresses -/

/-- R41. Settles O44: a register starts at every second byte of the block of 8. -/
theorem registerAddresses : Obligations.RegisterAddresses := by
  intro addr idx
  unfold regIndex
  split
  next hin =>
    rw [Option.some.injEq]
    omega
  next hout =>
    constructor
    · nofun
    · omega

end Sys2Proof.Machine
end

section
/-!
PROOFS. The steps of the port: an input that is due, a held write that is accepted. TRACE grows only at its end.
-/

namespace Sys2Proof.Machine

/-! ## A due input -/

/-- An input that is due moves before the controller (log entry 2). -/
theorem step_of_due {s : State} {a : Arrival} {rest : List Arrival} (hg : s.agenda = a :: rest) (hd : s.due a = true) :
    step s = ({ s with agenda := rest } : State).arrive a.input := by
  simp [step, State.nextMove, hg, hd]

/-- An access that changes nothing takes effect as its answer alone (R58, R59). -/
theorem arrive_of_answer {t : State} {x : Input} {r : Reply} (hr : t.rst = false) (h : x.answerAt t = some r) :
    t.arrive x = .next { t with replies := t.replies ++ [r] } := by
  cases x with
  | rst level => cases h
  | read agent idx size =>
    obtain ⟨⟨rfl, hidx⟩, rfl⟩ : (size = 2 ∧ idx ≤ 3) ∧ .data agent idx (t.memRead idx) = r := by simpa [Input.answerAt] using h
    simp [State.arrive, State.hostAccess, wholeAccess, hr, hidx]
  | write agent idx size w =>
    obtain ⟨⟨rfl, hpos, hidx⟩, rfl⟩ : (size = 2 ∧ 1 ≤ idx ∧ idx ≤ 3) ∧ .done agent = r := by simpa [Input.answerAt] using h
    simp [State.arrive, State.hostAccess, wholeAccess, State.memWrite, hr, hidx, Nat.ne_of_gt hpos]

/-- The step of an access that is due and changes nothing. -/
theorem step_of_answer {s : State} {a : Arrival} {rest : List Arrival} {r : Reply} (hg : s.agenda = a :: rest)
    (hd : s.due a = true) (hr : s.rst = false) (h : a.input.answerAt s = some r) :
    step s = .next { s with agenda := rest, replies := s.replies ++ [r] } := by
  rw [step_of_due hg hd]
  exact arrive_of_answer (t := { s with agenda := rest }) hr h

/-- R60, R58, R32. Settles O40: a `CMD` write joins the held ones, any other is an access that changes nothing. -/
theorem hostWritesAtThePort : Obligations.HostWritesAtThePort := by
  intro s t agent idx w rest hg hd hr
  refine ⟨?_, fun h1 h3 => step_of_answer hg hd hr (by simp [Input.answerAt, h1, h3])⟩
  rintro rfl
  rw [step_of_due hg hd]
  simp [State.arrive, State.hostAccess, wholeAccess, State.memWrite, hr]

/-- R59, R58, R25, R31, R32. Settles O41: a read is an access that changes nothing, and answers its register. -/
theorem hostReadsAtThePort : Obligations.HostReadsAtThePort := by
  intro s t agent idx rest hg hd hr hidx
  refine ⟨s.memRead idx, step_of_answer hg hd hr (by simp [Input.answerAt, hidx]), ?_⟩
  match idx, hidx with
  | 0, _ => rfl
  | 1, _ => rfl
  | 2, _ => rfl
  | 3, _ => rfl

/-- R57. Settles O42: such an access is not a whole one, which the port takes alone. -/
theorem oddAccessesAreRefused : Obligations.OddAccessesAreRefused := by
  intro s t agent idx size w rest hr hodd
  have hnot : wholeAccess idx size = false := by
    simp only [wholeAccess, Bool.and_eq_false_iff, decide_eq_false_iff_not]
    omega
  have hrefused (u u' : State) (hu : u.rst = false) : u.hostAccess idx size u' = .refused .badAccess := by
    simp [State.hostAccess, hu, hnot]
  exact ⟨fun hg hd => (step_of_due hg hd).trans (hrefused _ _ hr), fun hg hd => (step_of_due hg hd).trans (hrefused _ _ hr)⟩

/-! ## A held write -/

/-- With nothing due and a write held, an idle controller takes one and accepts it. -/
theorem step_accepts {s : State} (hr : s.rst = false) (hs : s.seq = .idle) (hd : s.nothingDue = true) (hheld : s.held ≠ []) :
    ∃ x u, s.takeHeld = some (x, u) ∧ step s = u.acceptWrite exec x := by
  rcases step_cases s with ⟨a, rest, hg, hdue, -⟩ | ⟨-, hr', -⟩ | ⟨-, -, c, p, path, hs', -⟩ | ⟨-, -, -, hnil, -⟩ |
    ⟨-, -, -, h⟩
  · simp [State.nothingDue, hg, hdue] at hd
  · cases hr.symm.trans hr'
  · cases hs.symm.trans hs'
  · exact absurd hnil hheld
  · exact h

/-- R61. Settles O38: taking a held write leaves the others in their order. -/
theorem oneHeldWriteIsAccepted : Obligations.OneHeldWriteIsAccepted := by
  intro s hr hs hd hheld
  obtain ⟨x, u, hu, e⟩ := step_accepts hr hs hd hheld
  obtain ⟨l, r, k, hl, rfl⟩ := takeHeld_cases hu
  exact ⟨l, x, r, k, hl, e⟩

/-- R60. Settles O35: the only held write is the one taken, and its word is latched before its command is carried out. -/
theorem stepRunsTheDecodedCommand : Obligations.StepRunsTheDecodedCommand := by
  intro s a w i hr hs hd hheld hdec _
  obtain ⟨x, u, hu, e⟩ := step_accepts hr hs hd (by simp [hheld])
  have hone : s.takeHeld = some (⟨a, w⟩, { s with held := [] }) := by simp [State.takeHeld, hheld]
  cases hone.symm.trans hu
  rw [e]
  simp [State.acceptWrite, hdec, State.latch]

/-- R60, R62. Settles O36: with nothing due, the step of a running command is the controller's. -/
theorem stepGoesOnWithTheRunningCommand : Obligations.StepGoesOnWithTheRunningCommand :=
  fun _ _ _ _ hr hs hd => step_of_running hr hs hd

/-- Log entry 11. Settles O39: `exec` accepts a command only with `BUSY = 0`. -/
theorem aCommandWaitsWhileBusy : Obligations.ACommandWaitsWhileBusy := by
  intro i s hr hb
  simp [exec_eq_carryOut, State.carryOut, hr, hb]

/-! ## TRACE -/

/-- An input appends to TRACE the event of its reset, or nothing. -/
theorem arrive_extends_trace {s t : State} {x : Input} (h : s.arrive x = .next t) : s.trace <+: t.trace := by
  rcases arrive_cases h with ⟨level, -, rfl⟩ | ⟨-, agent, idx, size, -, rfl⟩ | ⟨-, agent, idx, size, w, -, rfl⟩
  · rcases setRst_cases level s with ⟨-, -, e⟩ | ⟨-, -, e⟩ | ⟨-, e⟩ <;> rw [e]
    · exact s.trace.prefix_append [.reset]
  · exact List.prefix_rfl
  · unfold State.memWrite
    split <;> exact List.prefix_rfl

/-- Carrying out a command appends its events to TRACE. -/
theorem exec_extends_trace {i : Instr} {s t : State} (h : exec i s = .next t) : s.trace <+: t.trace := by
  rw [exec_eq_carryOut] at h
  rcases carryOut_cases h with ⟨-, rfl⟩ | ⟨-, hrun⟩
  · exact List.prefix_rfl
  · exact (runSteps_onRunOf (c := i) (p := 0) (path := .main) rfl hrun).kept.trace

/-- R52, R62. Settles O51: by whose move the step is. -/
theorem traceIsOnlyAddedTo : Obligations.TraceIsOnlyAddedTo := by
  intro s t h
  have grows : s.trace <+: t.trace := by
    rcases step_cases s with ⟨a, rest, -, -, e⟩ | ⟨-, -, e⟩ | ⟨-, -, c, p, path, hs, e⟩ | ⟨-, -, -, -, e⟩ |
      ⟨-, -, -, x, u, hu, e⟩ <;> rw [e] at h
    · exact (arrive_extends_trace h :)
    · cases h
      exact List.prefix_rfl
    · exact (runSteps_onRunOf hs h).kept.trace
    · cases h
      exact List.prefix_rfl
    · obtain ⟨l, r, k, -, rfl⟩ := takeHeld_cases hu
      rcases acceptWrite_cases exec x { s with held := l ++ r, picks := k } with ⟨i, -, e'⟩ | ⟨-, -, e'⟩ <;> rw [e'] at h
      · exact (exec_extends_trace h :)
      · cases h
        exact List.prefix_rfl
  exact grows.imp fun _ => Eq.symm

end Sys2Proof.Machine
end

section
/-!
PROOFS. A running command: its results wait for its end, the next input stops it at its time, and an access it pauses for changes
nothing of it.
-/

namespace Sys2Proof.Machine

/-! ## Until the end, and up to the next input -/

/-- R59, R27. Settles O31: a step that does not end the command commits nothing. -/
theorem resultsWaitForTheLastStep : Obligations.ResultsWaitForTheLastStep := by
  intro s t h hrun
  cases hs : s.seq with
  | idle =>
    rw [controllerStep_idle hs] at h
    cases h
    exact absurd hs hrun
  | run c p path =>
    rcases (controllerStep_onRunOf hs h).ended_or_running with ⟨hidle, -⟩ | ⟨-, hkept⟩
    · exact absurd hidle hrun
    · exact hkept

/-- R60, R62. Settles O54: the controller has the steps up to the time of the input alone, and each takes one unit of time. -/
theorem aRunningCommandReachesTheNextInput : Obligations.ARunningCommandReachesTheNextInput := by
  intro s n x rest h hr hrun hg hlt
  cases hs : s.seq with
  | idle => exact absurd hs hrun
  | run c p path =>
    have hd : s.nothingDue = true := by simp [State.nothingDue, State.due, State.quiet, hg, hr, hs, hlt]
    have hsteps : s.stepsAlone c = n - s.now := by simp [State.stepsAlone, hg]
    obtain ⟨-, -, -, -, hok⟩ := h.running hs
    obtain ⟨t, ht, -, hend⟩ := runSteps_of_runningOk (n - s.now) hs hok
    have hkept := (runSteps_onRunOf hs ht).kept
    rw [step_of_running hr hs hd, hsteps]
    refine ⟨t, ht, hkept.held, hkept.agenda, hkept.accepted, ?_⟩
    rcases hend with ⟨hq, hb, hle⟩ | ⟨hnow, -⟩
    · exact .inr ⟨hq, hb, by omega⟩
    · exact .inl (by omega)

/-! ## The controller does not look at the inputs to come or at the answers -/

/-- The state with the inputs `g` to come, and its own answers after the answers `l`. -/
def State.facing (g : List Arrival) (l : List Reply) (s : State) : State := { s with agenda := g, replies := l ++ s.replies }

/-- An operation does not look at the outside. -/
theorem afterOp_facing (g : List Arrival) (l : List Reply) (op : Op) (s : State) :
    (s.facing g l).afterOp op = (s.afterOp op).facing g l := by
  cases op with
  | getTest => simp only [State.afterOp, testAck_eq_withSeq]; rfl
  | _ => rfl

/-- The end of a command adds its answer after the others. -/
theorem finish_facing (g : List Arrival) (l : List Reply) (c : Instr) (path : Path) (s : State) :
    (s.facing g l).finish c path = (s.finish c path).facing g l := by
  cases c <;> simp [State.finish, State.commit, State.replyDone, State.facing]

/-- SEQ's move does not look at the outside. -/
theorem moveOn_facing (g : List Arrival) (l : List Reply) {s : State} {c : Instr} {p : Nat} {path : Path}
    (hs : s.seq = .run c p path) : (s.facing g l).moveOn = s.moveOn.facing g l := by
  rw [moveOn_of_run hs, apply_ite (State.facing g l), moveOn_of_run (s := s.facing g l) hs, finish_facing]
  rfl

/-- A controller step does not look at the outside. -/
theorem controllerStep_facing (g : List Arrival) (l : List Reply) {s t : State} (h : controllerStep s = .next t) :
    controllerStep (s.facing g l) = .next (t.facing g l) := by
  cases hs : s.seq with
  | idle =>
    rw [controllerStep_idle hs] at h
    cases h
    exact controllerStep_idle (s := s.facing g l) hs
  | run c p path =>
    cases ho : opAt c path p s.retry with
    | none =>
      rw [controllerStep_past hs ho] at h
      cases h
      rw [controllerStep_past (s := s.facing g l) hs ho, finish_facing]
    | some op =>
      rw [controllerStep_run hs ho] at h
      obtain ⟨u, hu, ht⟩ := andThen_next_iff.mp h
      obtain ⟨hreleased, rfl⟩ := doOp_next_iff.mp hu
      cases ht
      obtain ⟨path', hp⟩ := State.afterOp_seq_run hs op
      have hop : doOp op (s.facing g l) = .next ((s.afterOp op).facing g l) :=
        doOp_next_iff.mpr ⟨hreleased, afterOp_facing g l op s⟩
      rw [controllerStep_run (s := s.facing g l) hs ho, hop, andThen_of_next, moveOn_facing g l hp]

/-- A run of steps does not look at the outside. -/
theorem runSteps_facing (g : List Arrival) (l : List Reply) (n : Nat) {s t : State} (h : runSteps n s = .next t) :
    runSteps n (s.facing g l) = .next (t.facing g l) := by
  induction n generalizing s with
  | zero =>
    cases h
    rfl
  | succ n ih =>
    cases hs : s.seq with
    | idle =>
      rw [runSteps_idle hs] at h
      cases h
      exact runSteps_idle (s := t.facing g l) hs (n + 1)
    | run c p path =>
      rw [runSteps_succ_run hs] at h
      obtain ⟨u, hu, ht⟩ := andThen_next_iff.mp h
      rw [runSteps_succ_run (s := s.facing g l) hs, controllerStep_facing g l hu, andThen_of_next, ih ht]

/-! ## Pausing and going on -/

/-- A command that a run of steps left unended ends, going on, where it ends when it is not interrupted. -/
theorem runSteps_resume {s t v : State} {k m : Nat} (ht : runSteps k s = .next t) (hv : runSteps m s = .next v)
    (hidle : v.seq = .idle) : runSteps m t = .next v := by
  calc runSteps m t = runSteps (k + m) s := by rw [runSteps_add, ht, andThen_of_next]
    _ = runSteps (m + k) s := by rw [Nat.add_comm]
    _ = .next v := by rw [runSteps_add, hv, andThen_of_next, runSteps_idle hidle]

/-- The answers on a run: none until the end of the command, then that its write is complete. -/
def State.AnsweredOnRun (s t : State) : Prop :=
  t.owner = s.owner ∧ t.replies = s.replies ++ if t.seq = .idle then [.done s.owner] else []

/-- A running command answers once, at its end (R60). -/
theorem runSteps_answers {s t : State} {c : Instr} {p : Nat} {path : Path} (hs : s.seq = .run c p path) {n : Nat}
    (h : runSteps n s = .next t) : s.AnsweredOnRun t := by
  refine runSteps_keeps (P := s.AnsweredOnRun) ?_ n s t ⟨rfl, by simp [hs]⟩ h
  rintro u v ⟨howner, hreplies⟩ hv
  cases hu : u.seq with
  | idle =>
    rw [controllerStep_idle hu] at hv
    cases hv
    exact ⟨howner, hreplies⟩
  | run c p path =>
    have hnone : u.replies = s.replies := by simpa [hu] using hreplies
    rcases controllerStep_cases hu hv with ⟨-, rfl⟩ | ⟨op, path', -, rfl | rfl⟩ <;>
      simp [State.AnsweredOnRun, howner, hnone]

/-- A command stopped before its end still runs, with no answer given yet, and going on it ends as it does when it is not
stopped. -/
theorem runSteps_stopped {s v : State} {c : Instr} {p : Nat} {path : Path} (hs : s.seq = .run c p path)
    (hok : s.runningOk c p path) {m : Nat} (hv : runSteps m s = .next v) (hidle : v.seq = .idle) {n : Nat}
    (hfrom : s.now ≤ n) (hto : n < v.now) :
    ∃ t p' path', runSteps (n - s.now) s = .next t ∧ t.seq = .run c p' path' ∧ t.now = n ∧ t.busy = s.busy ∧
      t.rst = s.rst ∧ t.replies = s.replies ∧ runSteps m t = .next v := by
  obtain ⟨t, ht, -, hend⟩ := runSteps_of_runningOk (n - s.now) hs hok
  have hresume := runSteps_resume ht hv hidle
  have hrunning : t.seq ≠ .idle := by
    intro hq
    rw [runSteps_idle hq] at hresume
    cases hresume
    omega
  obtain ⟨hkept, hend'⟩ := runSteps_onRunOf hs ht
  rcases hend' with ⟨hq, -⟩ | ⟨⟨p', path', hq⟩, -, -, hb⟩
  · exact absurd hq hrunning
  have hnow : t.now = n := by
    rcases hend with ⟨hq', -⟩ | ⟨hnow, -⟩
    · exact absurd hq' hrunning
    · omega
  have hnone : t.replies = s.replies := by simpa [hq] using (runSteps_answers hs ht).2
  exact ⟨t, p', path', ht, hq, hnow, hb, hkept.rst, hnone, hresume⟩

/-- The acceptance does not look at the outside: with inputs to come it is the acceptance with no answers before it, and those of
`s` put before. -/
theorem accept_facing (i : Instr) (g : List Arrival) (s : State) :
    ({ s with agenda := g } : State).accept i = (({ s with replies := [] } : State).accept i).facing g s.replies := by
  simp [State.accept, State.acceptWord, State.writeIllegal, State.facing]

/-- R59, R62, R58. Settles O33: the run does not look at the answers, so it is the same run after the access has added its own. -/
theorem pausingACommandChangesNothing : Obligations.PausingACommandChangesNothing := by
  intro i s hr hb hg
  have hready : s.ready := ⟨hr, hb, by simp [State.undisturbed, hg]⟩
  -- The run with no answers before it, to `v`; the answers of `s`, and of the access, are then put before it.
  obtain ⟨v, hv, hidle, -⟩ := exec_ends i (s := { s with replies := [] }) hready
  rw [exec_eq_carryOut, carryOut_ready (by exact hready)] at hv
  have hdone : v.replies = [.done s.owner] := by
    obtain ⟨-, hreplies⟩ := runSteps_answers (p := 0) (path := .main) rfl hv
    simpa [hidle] using hreplies
  have hends : ∀ l, v.facing [] l = { v.facing [] s.replies with replies := l ++ [.done s.owner] } := by
    simp [State.facing, hdone]
  refine ⟨v.facing [] s.replies, ?_, hidle, by rw [hends], fun n x hfrom hto => ?_⟩
  · have halone : s.accept i = (({ s with replies := [] } : State).accept i).facing [] s.replies := by
      rw [← accept_facing, ← hg]
    rw [exec_eq_carryOut, carryOut_ready hready, halone]
    exact runSteps_facing [] s.replies _ hv
  have hnow : (({ s with replies := [] } : State).accept i).now = s.now + 1 := now_accept i _
  obtain ⟨t, p, path, ht, hq, htn, htb, htr, hnone, hresume⟩ :=
    runSteps_stopped (path := .main) rfl (accept_runningOk i _) hv hidle (hnow ▸ hfrom) hto
  have hrst : t.rst = false := htr.trans hr
  refine ⟨t.facing [⟨some n, x⟩] s.replies, ?_, htn, htb, fun r hanswer => ⟨t.facing [] (s.replies ++ [r]), ?_, ?_⟩⟩
  · rw [exec_eq_carryOut, carryOut_accepts (by exact hr) (by exact hb), accept_facing]
    exact runSteps_facing [⟨some n, x⟩] s.replies _ ht
  · have hdue : (t.facing [⟨some n, x⟩] s.replies).due ⟨some n, x⟩ = true := by
      have hle : n ≤ (t.facing [⟨some n, x⟩] s.replies).now := htn.ge
      simp [State.due, hle]
    have hempty : t.replies = [] := hnone
    rw [step_of_answer rfl hdue hrst hanswer]
    simp [State.facing, hempty]
  · have halone : (t.facing [] (s.replies ++ [r])).stepsAlone i = maxPrimitives i := rfl
    rw [step_of_running (s := t.facing [] (s.replies ++ [r])) hrst hq rfl, halone, runSteps_facing [] _ _ hresume, hends]
    simp

end Sys2Proof.Machine
end

section
/-!
PROOFS. Command words: the encoder and the decoder through the three fields of a word, the legal words, the rows of the opcode map,
and the grounds on which a word is illegal.
-/

namespace Sys2Proof

/-! ## A word is its three fields (R68) -/

/-- Two words with the same RES, OP and IMM8 are one word. -/
theorem word_eq_iff_fields {v w : Word} :
    v = w ↔ fieldRes v = fieldRes w ∧ fieldOp v = fieldOp w ∧ fieldImm v = fieldImm w := by
  have fields (u : Word) : fieldRes u ++ (fieldOp u ++ fieldImm u) = u := by
    have hlow : fieldOp u ++ fieldImm u = u.extractLsb' 0 11 :=
      BitVec.extractLsb'_append_extractLsb'_eq_extractLsb' (by decide)
    rw [hlow, fieldRes, BitVec.extractLsb'_append_extractLsb'_eq_extractLsb' (by decide), BitVec.extractLsb'_eq_self]
  constructor
  · rintro rfl
    exact ⟨rfl, rfl, rfl⟩
  · rintro ⟨hres, hop, himm⟩
    rw [← fields v, ← fields w, hres, hop, himm]

/-- OP is one of eight values. -/
theorem op_cases : ∀ op : BitVec 3,
    op = 0#3 ∨ op = 1#3 ∨ op = 2#3 ∨ op = 3#3 ∨ op = 4#3 ∨ op = 5#3 ∨ op = 6#3 ∨ op = 7#3 := by
  decide

/-! ## The fields of a command's word (R71) -/

/-- The OP column of R71. -/
def Instr.op : Instr → BitVec 3
  | .start => 1#3
  | .stop => 2#3
  | .sendByte _ => 3#3
  | .waitAck => 4#3
  | .sendAck _ => 5#3
  | .readByte => 6#3

/-- The operand bits of a command (R70, R71). -/
def Instr.imm : Instr → Byte
  | .sendByte b => b
  | .sendAck n => 0#7 ++ BitVec.ofBool n
  | .start | .stop | .waitAck | .readByte => 0#8

/-- SEND_BYTE's word is its operand under the byte 3. -/
theorem encode_sendByte (b : Byte) : encode (.sendByte b) = 0x03#8 ++ b :=
  calc 0x0300#16 ||| b.zeroExtend 16
    _ = (0x03#8 ++ 0#8) ||| (0#8 ++ b) := congrArg _ (BitVec.setWidth_eq_append (by decide))
    _ = 0x03#8 ++ b := by rw [BitVec.or_append, BitVec.or_zero, BitVec.zero_or]

/-- A command's word has no reserved bit. -/
theorem fieldRes_encode (i : Instr) : fieldRes (encode i) = 0#5 := by
  cases i with
  | sendByte b =>
    rw [encode_sendByte, fieldRes, BitVec.extractLsb'_append_eq_of_le (by decide)]
    rfl
  | sendAck n => revert n; decide
  | start | stop | waitAck | readByte => decide

theorem fieldOp_encode (i : Instr) : fieldOp (encode i) = i.op := by
  cases i with
  | sendByte b =>
    rw [encode_sendByte, fieldOp, BitVec.extractLsb'_append_eq_of_le (by decide)]
    rfl
  | sendAck n => revert n; decide
  | start | stop | waitAck | readByte => decide

theorem fieldImm_encode (i : Instr) : fieldImm (encode i) = i.imm := by
  cases i with
  | sendByte b =>
    rw [encode_sendByte, fieldImm, BitVec.extractLsb'_append_eq_right, Instr.imm]
  | sendAck n => revert n; decide
  | start | stop | waitAck | readByte => decide

/-- A command's word is the one with the command's three fields. -/
theorem encode_eq_iff {i : Instr} {w : Word} :
    encode i = w ↔ fieldRes w = 0#5 ∧ fieldOp w = i.op ∧ fieldImm w = i.imm := by
  rw [word_eq_iff_fields, fieldRes_encode, fieldOp_encode, fieldImm_encode]
  simp only [eq_comm]

/-- The lowest operand bit is SEND_ACK's N (R70). -/
theorem fieldImm_eq_append (w : Word) : fieldImm w = w.extractLsb' 1 7 ++ BitVec.ofBool (operandN w) := by
  have hlow : w.extractLsb' 0 1 = BitVec.ofBool (operandN w) := by
    ext k hk
    obtain rfl : k = 0 := by omega
    simp [operandN]
  rw [← hlow, BitVec.extractLsb'_append_extractLsb'_eq_extractLsb' (by decide), fieldImm]

/-- IMM8 holds SEND_ACK's operand exactly when the bits above it are 0 (R73). -/
theorem fieldImm_eq_ack_iff {w : Word} {n : Bool} :
    fieldImm w = (Instr.sendAck n).imm ↔ w.extractLsb' 1 7 = 0#7 ∧ operandN w = n := by
  rw [fieldImm_eq_append, Instr.imm]
  constructor
  · intro h
    have hhigh := congrArg (BitVec.extractLsb' 1 7) h
    have hlow := congrArg (BitVec.extractLsb' 0 1) h
    simp only [BitVec.extractLsb'_append_eq_left, BitVec.extractLsb'_append_eq_right] at hhigh hlow
    exact ⟨hhigh, by simpa using congrArg (BitVec.getLsbD · 0) hlow⟩
  · rintro ⟨hhigh, rfl⟩
    rw [hhigh]

/-! ## The decoder (R72) -/

/-- A command without an operand is read where IMM8 is 0. -/
theorem plainCommand_eq_command_iff {w : Word} {c i : Instr} :
    plainCommand w c = .command i ↔ fieldImm w = 0#8 ∧ c = i := by
  by_cases himm : fieldImm w = 0#8 <;> simp [plainCommand, himm]

/-- A word with the three fields of a command decodes to it. -/
theorem decode_of_fields {w : Word} {i : Instr} (hres : fieldRes w = 0#5) (hop : fieldOp w = i.op)
    (himm : fieldImm w = i.imm) : decode w = .command i := by
  cases i with
  | start | stop | waitAck | readByte =>
    simpa [decode, hres, hop, Instr.op] using plainCommand_eq_command_iff.mpr ⟨himm, rfl⟩
  | sendByte b => simpa [decode, hres, hop, Instr.op, operandB] using (show fieldImm w = b from himm)
  | sendAck n =>
    obtain ⟨hhigh, hn⟩ := fieldImm_eq_ack_iff.mp himm
    simp [decode, hres, hop, Instr.op, hhigh, hn]

/-- A word that decodes to a command has its three fields. -/
theorem fields_of_decode {w : Word} {i : Instr} (h : decode w = .command i) :
    fieldRes w = 0#5 ∧ fieldOp w = i.op ∧ fieldImm w = i.imm := by
  unfold decode at h
  split at h
  case isTrue => cases h
  case isFalse hres =>
    refine ⟨not_not.mp hres, ?_⟩
    split at h
    case h_1 hop | h_2 hop | h_4 hop | h_6 hop =>
      obtain ⟨himm, rfl⟩ := plainCommand_eq_command_iff.mp h
      exact ⟨BitVec.eq_of_toNat_eq hop, himm⟩
    case h_3 hop =>
      cases h
      exact ⟨BitVec.eq_of_toNat_eq hop, rfl⟩
    case h_5 hop =>
      split at h
      case isTrue hhigh =>
        cases h
        exact ⟨BitVec.eq_of_toNat_eq hop, fieldImm_eq_ack_iff.mpr ⟨hhigh, rfl⟩⟩
      case isFalse => cases h
    case h_7 => cases h

/-- A word decodes to a command exactly when it is the command's word. -/
theorem decode_eq_command_iff {w : Word} {i : Instr} : decode w = .command i ↔ encode i = w := by
  rw [encode_eq_iff]
  exact ⟨fields_of_decode, fun ⟨hres, hop, himm⟩ => decode_of_fields hres hop himm⟩

/-- R71, R72. Settles O1: either way the word and the command have the same three fields. -/
theorem decodeAndEncodeAgree : Obligations.DecodeAndEncodeAgree :=
  ⟨fun _ _ => decode_eq_command_iff.mpr rfl, fun _ _ => decode_eq_command_iff.mp⟩

/-- The decoder undoes the encoder, so different commands have different words. -/
theorem encode_injective : Function.Injective encode := fun _ _ h =>
  Decoded.command.inj ((decode_eq_command_iff.mpr rfl).symm.trans (decode_eq_command_iff.mpr h.symm))

/-! ## Legal words (R73) -/

/-- A word is legal exactly when it is some command's. -/
theorem illegalWord_eq_false_iff {w : Word} : illegalWord w = false ↔ ∃ i, encode i = w := by
  simp only [← decode_eq_command_iff, illegalWord]
  cases decode w <;> simp [Decoded.toOption]

theorem illegalWord_encode (i : Instr) : illegalWord (encode i) = false :=
  illegalWord_eq_false_iff.mpr ⟨i, rfl⟩

/-- Every command, the ones with operands last. -/
def allCommands : List Instr :=
  [.start, .stop, .waitAck, .readByte, .sendAck false, .sendAck true] ++ (List.finRange 256).map fun b => .sendByte (.ofFin b)

theorem mem_allCommands (i : Instr) : i ∈ allCommands := by
  cases i with
  | start | stop | waitAck | readByte => simp [allCommands]
  | sendAck n => cases n <;> simp [allCommands]
  | sendByte b => exact List.mem_append_right _ (List.mem_map_of_mem (List.mem_finRange b.toFin))

theorem allCommands_nodup : allCommands.Nodup := by
  have hbytes : ((List.finRange 256).map fun b => Instr.sendByte (.ofFin b)).Nodup :=
    (List.nodup_finRange 256).map fun b c h => by simpa using h
  refine List.Nodup.append (by decide) hbytes ?_
  simp [List.disjoint_left]

/-- R72. Settles O3: the legal words are the words of the 262 commands. -/
theorem legalWordsNumber262 : Obligations.LegalWordsNumber262 := by
  refine ⟨allCommands.map encode, allCommands_nodup.map encode_injective, by simp [allCommands], fun w => ?_⟩
  simp [illegalWord_eq_false_iff, mem_allCommands]

/-! ## The rows of the opcode map (R71) -/

/-- The command of the row of `i` whose operand is read from the word. -/
def Instr.reading (w : Word) : Instr → Instr
  | .sendByte _ => .sendByte (operandB w)
  | .sendAck _ => .sendAck (operandN w)
  | .start => .start
  | .stop => .stop
  | .waitAck => .waitAck
  | .readByte => .readByte

theorem op_reading (w : Word) (i : Instr) : (i.reading w).op = i.op := by
  cases i <;> rfl

theorem rowMatch_reading (w : Word) (i : Instr) : rowMatch (i.reading w) = rowMatch i := by
  cases i <;> rfl

theorem rowMask_reading (w : Word) (i : Instr) : rowMask (i.reading w) = rowMask i := by
  cases i <;> rfl

/-- A command's word selects the command's row. -/
theorem selectsRow_encode (i : Instr) : selectsRow (encode i) i = true := by
  have hrow : encode i &&& rowMask i = rowMatch i := by
    cases i with
    | start => exact Laws.MatchesRow.start
    | stop => exact Laws.MatchesRow.stop
    | sendByte b => exact Laws.MatchesRow.sendByte b
    | waitAck => exact Laws.MatchesRow.waitAck
    | sendAck n => exact Laws.MatchesRow.sendAck n
    | readByte => exact Laws.MatchesRow.readByte
  simpa [selectsRow] using hrow

theorem fieldRes_and (v w : Word) : fieldRes (v &&& w) = fieldRes v &&& fieldRes w := BitVec.extractLsb'_and

theorem fieldOp_and (v w : Word) : fieldOp (v &&& w) = fieldOp v &&& fieldOp w := BitVec.extractLsb'_and

theorem fieldImm_and (v w : Word) : fieldImm (v &&& w) = fieldImm v &&& fieldImm w := BitVec.extractLsb'_and

theorem fieldRes_rowMask (i : Instr) : fieldRes (rowMask i) = BitVec.allOnes 5 := by
  cases i <;> simp [rowMask, fieldRes]

theorem fieldOp_rowMask (i : Instr) : fieldOp (rowMask i) = BitVec.allOnes 3 := by
  cases i <;> simp [rowMask, fieldOp]

theorem fieldRes_rowMatch (i : Instr) : fieldRes (rowMatch i) = 0#5 := by
  cases i <;> simp [rowMatch, fieldRes]

theorem fieldOp_rowMatch (i : Instr) : fieldOp (rowMatch i) = i.op := by
  cases i <;> simp [rowMatch, fieldOp, Instr.op]

theorem fieldImm_rowMatch (i : Instr) : fieldImm (rowMatch i) = 0#8 := by
  cases i <;> simp [rowMatch, fieldImm]

/-- A row fixes RES, OP and the operand bits in its mask. -/
theorem selectsRow_iff {w : Word} {i : Instr} :
    selectsRow w i = true ↔ fieldRes w = 0#5 ∧ fieldOp w = i.op ∧ fieldImm w &&& fieldImm (rowMask i) = 0#8 := by
  rw [selectsRow, decide_eq_true_iff, word_eq_iff_fields, fieldRes_and, fieldOp_and, fieldImm_and, fieldRes_rowMask,
    fieldOp_rowMask, BitVec.and_allOnes, BitVec.and_allOnes, fieldRes_rowMatch, fieldOp_rowMatch, fieldImm_rowMatch]

/-- A word that selects a row is the word of the row's command with the operand it holds. -/
theorem encode_reading {w : Word} {i : Instr} (h : selectsRow w i = true) : encode (i.reading w) = w := by
  obtain ⟨hres, hop, himm⟩ := selectsRow_iff.mp h
  refine encode_eq_iff.mpr ⟨hres, hop.trans (op_reading w i).symm, ?_⟩
  cases i with
  | start | stop | waitAck | readByte => exact (BitVec.and_allOnes).symm.trans himm
  | sendByte b => rfl
  | sendAck n =>
    have hmask : fieldImm (rowMask (.sendAck n)) = BitVec.allOnes 7 ++ 0#1 := by simp [rowMask, fieldImm]
    rw [hmask, fieldImm_eq_append, BitVec.and_append, BitVec.and_allOnes, BitVec.and_zero] at himm
    exact fieldImm_eq_ack_iff.mpr ⟨(BitVec.append_left_inj 0#1).mp himm, rfl⟩

/-- R71, R73. Settles O2: each row that matches a word gives it a command, and the word has one command at most. -/
theorem exactlyOneRowMatchesALegalWord : Obligations.ExactlyOneRowMatchesALegalWord := by
  refine fun w => ⟨?_, fun i j hi hj => ?_⟩
  · rw [illegalWord_eq_false_iff]
    constructor
    · rintro ⟨i, rfl⟩
      exact ⟨i, selectsRow_encode i⟩
    · rintro ⟨i, hi⟩
      exact ⟨i.reading w, encode_reading hi⟩
  · have hone : i.reading w = j.reading w := encode_injective ((encode_reading hi).trans (encode_reading hj).symm)
    rw [← rowMatch_reading w i, ← rowMask_reading w i, hone, rowMatch_reading, rowMask_reading]
    exact ⟨rfl, rfl⟩

/-! ## The grounds on which a word is illegal (R73) -/

/-- OP, RES and the operand bits of a legal word. -/
theorem illegalWord_eq_false_iff_fields {w : Word} :
    illegalWord w = false ↔ fieldRes w = 0#5 ∧
      ((fieldOp w = 1#3 ∨ fieldOp w = 2#3 ∨ fieldOp w = 4#3 ∨ fieldOp w = 6#3) ∧ fieldImm w = 0#8 ∨
        fieldOp w = 3#3 ∨ fieldOp w = 5#3 ∧ w.extractLsb' 1 7 = 0#7) := by
  simp only [illegalWord_eq_false_iff, encode_eq_iff]
  constructor
  · rintro ⟨i, hres, hop, himm⟩
    refine ⟨hres, ?_⟩
    cases i with
    | start => exact .inl ⟨.inl hop, himm⟩
    | stop => exact .inl ⟨.inr (.inl hop), himm⟩
    | sendByte b => exact .inr (.inl hop)
    | waitAck => exact .inl ⟨.inr (.inr (.inl hop)), himm⟩
    | sendAck n => exact .inr (.inr ⟨hop, (fieldImm_eq_ack_iff.mp himm).1⟩)
    | readByte => exact .inl ⟨.inr (.inr (.inr hop)), himm⟩
  · rintro ⟨hres, ⟨hop | hop | hop | hop, himm⟩ | hop | ⟨hop, hhigh⟩⟩
    · exact ⟨.start, hres, hop, himm⟩
    · exact ⟨.stop, hres, hop, himm⟩
    · exact ⟨.waitAck, hres, hop, himm⟩
    · exact ⟨.readByte, hres, hop, himm⟩
    · exact ⟨.sendByte (fieldImm w), hres, hop, rfl⟩
    · exact ⟨.sendAck (operandN w), hres, hop, fieldImm_eq_ack_iff.mpr ⟨hhigh, rfl⟩⟩

/-- The grounds of R73 are what a legal word's fields rule out. -/
theorem illegalWord_eq_true_iff {w : Word} :
    illegalWord w = true ↔
      (fieldOp w = 0#3 ∨ fieldOp w = 7#3) ∨ fieldRes w ≠ 0#5 ∨
      ((fieldOp w = 1#3 ∨ fieldOp w = 2#3 ∨ fieldOp w = 4#3 ∨ fieldOp w = 6#3) ∧ fieldImm w ≠ 0#8) ∨
      (fieldOp w = 5#3 ∧ w.extractLsb' 1 7 ≠ 0#7) := by
  rw [← Bool.not_eq_false, illegalWord_eq_false_iff_fields]
  rcases op_cases (fieldOp w) with h | h | h | h | h | h | h | h <;> simp [h, imp_iff_not_or]

/-- 95_test_vectors.md 2.1. Settles O4: the seven words are those of their commands; each illegal word has a ground of R73. -/
theorem specWordsDecode : Obligations.SpecWordsDecode := by
  unfold Obligations.SpecWordsDecode
  simp only [decode_eq_command_iff, illegalWord_eq_true_iff]
  decide

end Sys2Proof
end

section
/-!
PROOFS. The acceptance of an illegal word, and the words the assembler gives.
-/

namespace Sys2Proof.Machine

/-! ## Acceptance of an illegal word (R73) -/

/-- With nothing due, an idle controller accepts the one write the port holds. -/
theorem step_accepts_only_held {s : State} {a : Nat} {w : Word} (hr : s.rst = false) (hs : s.seq = .idle)
    (hd : s.nothingDue = true) (hheld : s.held = [⟨a, w⟩]) :
    step s = ({ s with held := [] } : State).acceptWrite exec ⟨a, w⟩ := by
  obtain ⟨x, u, hu, e⟩ := step_accepts hr hs hd (by simp [hheld])
  have hone : s.takeHeld = some (⟨a, w⟩, { s with held := [] }) := by simp [State.takeHeld, hheld]
  cases hone.symm.trans hu
  exact e

/-- An illegal word that is accepted is latched and rejected. -/
theorem acceptWrite_of_illegal {x : PortWrite} (h : illegalWord x.word = true) (run : Instr → State → Out) (s : State) :
    s.acceptWrite run x = .next (s.latch x).rejectWord := by
  rcases acceptWrite_cases run x s with ⟨i, hi, -⟩ | ⟨r, -, e⟩
  · simp [illegalWord, hi, Decoded.toOption] at h
  · exact e

/-- R73. Settles O37: the fields decide which words are illegal, and the step rejects the latched word. -/
theorem illegalWordOnlySetsTheFlag : Obligations.IllegalWordOnlySetsTheFlag := by
  refine ⟨fun w => illegalWord_eq_true_iff, fun s a w hr hs hd hheld hill => ?_⟩
  exact (step_accepts_only_held hr hs hd hheld).trans (acceptWrite_of_illegal (x := ⟨a, w⟩) hill _ _)

/-! ## The assembler (R75, R76) -/

/-- An operand out of range gives no word (R75). -/
theorem assembleLine_of_not_wf {l : AsmLine} (h : l.wf = false) : assembleLine l = none := by
  simp [assembleLine, expandAsm, h]

/-- A line's word is a command's word. -/
theorem illegalWord_of_assembleLine {l : AsmLine} {w : Word} (h : assembleLine l = some w) : illegalWord w = false := by
  obtain ⟨i, -, rfl⟩ := Option.map_eq_some_iff.mp h
  exact illegalWord_encode i

/-- Below 256 the operand fits the byte, and the word holds it unchanged (R70, R75). -/
theorem assembleLine_sendByte (imm : Nat) :
    assembleLine (.sendByte imm) = if imm < 256 then some (0x0300#16 ||| BitVec.ofNat 16 imm) else none := by
  by_cases h : imm < 256
  · simp [assembleLine, expandAsm, AsmLine.wf, h, encode, BitVec.setWidth_ofNat_of_le_of_lt]
  · rw [if_neg h, assembleLine_of_not_wf (by simpa [AsmLine.wf] using h)]

/-- SEND_ACK takes the operands 0 and 1 alone (R75). -/
theorem assembleLine_sendAck (imm : Nat) :
    assembleLine (.sendAck imm) = if imm < 2 then some (0x0500#16 ||| BitVec.ofNat 16 imm) else none := by
  match imm with
  | 0 | 1 => decide
  | n + 2 => exact assembleLine_of_not_wf (by simp [AsmLine.wf])

/-- R75, R76. Settles O5: the words are equations of the assembler; each is a command's word, so it is legal. -/
theorem assemblerEmitsOnlyLegalWords : Obligations.AssemblerEmitsOnlyLegalWords :=
  ⟨rfl, rfl, rfl, rfl, assembleLine_sendByte, assembleLine_sendAck, fun _ _ => illegalWord_of_assembleLine⟩

/-- The write address byte: the read/write bit is 0 (R76). -/
theorem assembleLine_addrW {a : Nat} (h : a < 128) : assembleLine (.addrW a) = assembleLine (.sendByte (2 * a)) := by
  have h2 : 2 * a < 256 := by omega
  simp [assembleLine, expandAsm, AsmLine.wf, h, h2]

/-- The read address byte: the read/write bit is 1 (R76). -/
theorem assembleLine_addrR {a : Nat} (h : a < 128) : assembleLine (.addrR a) = assembleLine (.sendByte (2 * a + 1)) := by
  have h2 : 2 * a + 1 < 256 := by omega
  simp [assembleLine, expandAsm, AsmLine.wf, h, h2]

theorem ofNat_two_mul (a : Nat) : BitVec.ofNat 16 (2 * a) = BitVec.ofNat 16 a <<< 1 := by
  apply BitVec.eq_of_toNat_eq
  simp [Nat.shiftLeft_eq, Nat.mul_comm]

theorem ofNat_two_mul_add_one (a : Nat) : BitVec.ofNat 16 (2 * a + 1) = BitVec.ofNat 16 a <<< 1 ||| 1#16 := by
  have hor : 2 * a + 1 = 2 * a ||| 1 := Nat.two_pow_add_eq_or_of_lt (i := 1) (by decide) a
  rw [hor, BitVec.ofNat_or, ofNat_two_mul]

/-- R76. Settles O6: an address line is the SEND_BYTE line of its expansion, whose operand is the address shifted, with the
read/write bit lowest. -/
theorem pseudoInstructionsExpand : Obligations.PseudoInstructionsExpand := by
  refine ⟨rfl, rfl, rfl, rfl, rfl, rfl, fun a h => ?_, fun a h => ?_⟩
  · have hw : 2 * a < 256 := by omega
    have hr : 2 * a + 1 < 256 := by omega
    refine ⟨assembleLine_addrW h, assembleLine_addrR h, ?_, ?_⟩
    · rw [assembleLine_addrW h, assembleLine_sendByte, if_pos hw, ofNat_two_mul]
    · rw [assembleLine_addrR h, assembleLine_sendByte, if_pos hr, ofNat_two_mul_add_one, BitVec.or_assoc]
  · exact ⟨assembleLine_of_not_wf (by simp [AsmLine.wf, h]), assembleLine_of_not_wf (by simp [AsmLine.wf, h])⟩

end Sys2Proof.Machine
end

section
/-!
PROOFS. START and STOP alone: the state each leaves behind, and what each shows on the bus.
-/

namespace Sys2Proof.Machine

/-! ## The primitive lists (R78, R79) -/

/-- START's list writes the three line latches, runs DTIMER down and appends its trace; it reads nothing of the state. -/
theorem runOps_startOps (s : State) :
    runOps startOps s = .next
      { s with sdaOe := true, sdaO := false, sclO := false, dtimer := 0, trace := s.trace ++ startTrace } := by
  simp [startOps, startTrace, doOp, State.dirOut, State.setSda, State.setScl, State.delay, State.log]

/-- STOP's list does the same with the lines at the idle bus. -/
theorem runOps_stopOps (s : State) :
    runOps stopOps s = .next
      { s with sdaOe := true, sdaO := true, sclO := true, dtimer := 0, trace := s.trace ++ stopTrace } := by
  simp [stopOps, stopTrace, doOp, State.dirOut, State.setSda, State.setScl, State.delay, State.log]

/-- R78, R60. Settles O13: acceptance, START's list in order, and the end of the command. -/
theorem startCompletes : Obligations.StartCompletes := fun s h => by
  rw [exec_start_runs h, runOps_startOps]
  rfl

/-- R79, R60. Settles O14: acceptance, STOP's list in order, and the end of the command. -/
theorem stopCompletes : Obligations.StopCompletes := fun s h => by
  rw [exec_stop_runs h, runOps_stopOps]
  rfl

/-! ## The bus reading (R53) -/

/-- Resting lines are the idle bus, or SCL is low and SDA stands anywhere (R109). -/
theorem resting_cases {l : Lines} (h : l.resting) : l = ⟨true, true, true⟩ ∨ ∃ oe sda, l = ⟨oe, sda, false⟩ := by
  obtain ⟨oe, sda, scl⟩ := l
  cases scl with
  | false => exact .inr ⟨oe, sda, rfl⟩
  | true =>
    obtain ⟨rfl, rfl⟩ : oe = true ∧ sda = true := h rfl
    exact .inl rfl

/-- On the idle bus neither `DirOut()` nor `Set(SDA, 1)` moves SDA, and START lowers it at once; with SCL low nothing is seen
before START's own pulse, wherever SDA stands (R78). -/
theorem busReading_startTrace {l : Lines} (h : l.resting) :
    busReading l startTrace = if l.sclO then [.startCond] else [.pulse, .startCond] := by
  obtain rfl | ⟨oe, sda, rfl⟩ := resting_cases h
  · rfl
  · rfl

/-- STOP lowers SCL first, which from resting lines ends no bit time and shows no condition; SDA then falls unseen, and rises under
the high SCL (R79). -/
theorem busReading_stopTrace {l : Lines} (h : l.resting) : busReading l stopTrace = [.pulse, .stopCond] := by
  obtain rfl | ⟨oe, sda, rfl⟩ := resting_cases h
  · rfl
  · rfl

/-- R78, R53, R110. Settles O23: START appends its trace, and the reading of that trace from resting lines. -/
theorem startShowsOneStartCondition : Obligations.StartShowsOneStartCondition := fun s h hrest =>
  ⟨_, startCompletes s h, (seenOnBus_of_append (es := startTrace) rfl (by decide)).trans (busReading_startTrace hrest)⟩

/-- R79, R53. Settles O24: STOP appends its trace, and the reading of that trace from resting lines. -/
theorem stopShowsOneStopCondition : Obligations.StopShowsOneStopCondition := fun s h hrest =>
  ⟨_, stopCompletes s h, (seenOnBus_of_append (es := stopTrace) rfl (by decide)).trans (busReading_stopTrace hrest)⟩

end Sys2Proof.Machine
end

section
/-!
PROOFS. SEND_BYTE and READ_BYTE alone: the shifter's arithmetic, the state each leaves behind, and what each shows on the bus.
-/

namespace Sys2Proof.Machine

/-! ## The shifter (R83) -/

theorem toNat_shiftOut (b : Byte) : (shiftOut b).toNat = (2 * b.toNat) % 256 := by
  rw [shiftOut, BitVec.toNat_shiftLeft, Nat.shiftLeft_eq, Nat.mul_comm]

theorem shiftOut_iterate (k : Nat) (b : Byte) : shiftOut^[k] b = b <<< k := by
  induction k with
  | zero => exact (BitVec.shiftLeft_zero b).symm
  | succ k ih => rw [Function.iterate_succ_apply', ih, shiftOut, BitVec.shiftLeft_add]

/-- The bit the transmit side drives after `k` shifts. -/
theorem srTop_shiftOut_iterate (b : Byte) {k : Nat} (hk : k ≤ 7) : srTop (shiftOut^[k] b) = b.getLsbD (7 - k) := by
  rw [srTop, shiftOut_iterate, BitVec.getLsbD_shiftLeft]
  simp [hk]

/-- Eight shifts empty the shifter. -/
theorem shiftOut_iterate_eight (b : Byte) : shiftOut^[8] b = 0x00#8 := by
  rw [shiftOut_iterate, BitVec.shiftLeft_eq_zero (Nat.le_refl 8)]

/-- The bits sent are the shifter's top bits, shift after shift (R54, R81). -/
theorem bitsMsbFirst_eq_srTop (b : Byte) : bitsMsbFirst b = (List.range 8).map fun k => srTop (shiftOut^[k] b) := by
  have top : ∀ k ∈ List.range 8, srTop (shiftOut^[k] b) = b.getLsbD (7 - k) := fun k hk =>
    srTop_shiftOut_iterate b (Nat.le_of_lt_succ (List.mem_range.mp hk))
  rw [List.map_congr_left top]
  rfl

/-- The sample comes into bit 0 of the doubled shifter. -/
theorem toNat_shiftIn (sr : Byte) (s : Bool) : (shiftIn sr s).toNat = (2 * sr.toNat) % 256 + s.toNat := by
  have even : (2 * sr.toNat) % 256 = 2 ^ 1 * (sr.toNat % 128) := by omega
  have sample : ((BitVec.ofBool s).zeroExtend 8).toNat = s.toNat := by cases s <;> rfl
  rw [shiftIn, BitVec.toNat_or, sample, ← shiftOut, toNat_shiftOut, even, Nat.two_pow_add_eq_or_of_lt s.toNat_lt]

theorem shiftIn_getLsbD_zero (sr : Byte) (s : Bool) : (shiftIn sr s).getLsbD 0 = s := by
  cases s <;> simp [shiftIn]

theorem shiftIn_getLsbD_succ (sr : Byte) (s : Bool) {i : Nat} (h : i + 1 < 8) :
    (shiftIn sr s).getLsbD (i + 1) = sr.getLsbD i := by
  simp [shiftIn, h, show i < 8 by omega]

/-- Bit `i` of the received byte is the sample `i` places before the last. -/
theorem byteOfSamples_reverse_getLsbD (l : List Bool) {i : Nat} (h : i < 8) :
    (byteOfSamples l.reverse).getLsbD i = l[i]?.getD false := by
  induction l generalizing i with
  | nil => simp [byteOfSamples]
  | cons v l ih =>
    have last : byteOfSamples (v :: l).reverse = shiftIn (byteOfSamples l.reverse) v := by simp [byteOfSamples]
    rw [last]
    cases i with
    | zero => exact shiftIn_getLsbD_zero _ _
    | succ i => rw [shiftIn_getLsbD_succ _ _ h, ih (by omega), List.getElem?_cons_succ]

/-- Of eight samples, sample `k` is bit `7 - k` (R82). -/
theorem byteOfSamples_range_getLsbD (f : Nat → Bool) {k : Nat} (hk : k < 8) :
    (byteOfSamples ((List.range 8).map f)).getLsbD (7 - k) = f k := by
  have sample : (((List.range 8).map f).reverse)[7 - k]? = some (f k) := by
    rw [List.getElem?_reverse (by simp; omega)]
    simp [show 7 - (7 - k) = k by omega, hk]
  rw [← List.reverse_reverse ((List.range 8).map f), byteOfSamples_reverse_getLsbD _ (by omega), sample, Option.getD_some]

/-- Eight samples are the digits of the byte in base 2: no shift drops a 1. -/
theorem toNat_byteOfSamples (s1 s2 s3 s4 s5 s6 s7 s8 : Bool) :
    (byteOfSamples [s1, s2, s3, s4, s5, s6, s7, s8]).toNat =
      s1.toNat * 2 ^ 7 + s2.toNat * 2 ^ 6 + s3.toNat * 2 ^ 5 + s4.toNat * 2 ^ 4 + s5.toNat * 2 ^ 3 + s6.toNat * 2 ^ 2
        + s7.toNat * 2 ^ 1 + s8.toNat * 2 ^ 0 := by
  have := s1.toNat_lt
  have := s2.toNat_lt
  have := s3.toNat_lt
  have := s4.toNat_lt
  have := s5.toNat_lt
  have := s6.toNat_lt
  have := s7.toNat_lt
  simp only [byteOfSamples, List.foldl_cons, List.foldl_nil, toNat_shiftIn, BitVec.toNat_ofNat]
  omega

theorem toNat_rxdata (s : State) : s.rxdata.toNat = s.rxbyte.toNat :=
  BitVec.toNat_setWidth_of_le (by decide)

/-- R83. Settles O11: each shift as doubling modulo 256, and what that makes of eight of them. -/
theorem shifterArithmetic : Obligations.ShifterArithmetic :=
  ⟨toNat_shiftOut, fun b _ => srTop_shiftOut_iterate b, toNat_shiftIn, toNat_byteOfSamples, toNat_rxdata⟩

/-! ## The primitive lists (R81, R82) -/

/-- The events of one bit of SEND_BYTE (R81). -/
def sendBitTrace (v : Bool) : List Event := [.set .sda v, .delay 1, .set .scl true, .delay 1, .set .scl false]

/-- The events of one bit of READ_BYTE (R82). -/
def readBitTrace (v : Bool) : List Event := [.set .scl false, .delay 1, .set .scl true, .delay 1, .get v]

theorem afterSendBit_eq (s : State) :
    s.afterSendBit =
      { s with
        sdaO := srTop s.sr, sclO := false, dtimer := 0, sr := shiftOut s.sr, bitcnt := s.bitcnt + 1#4
        trace := s.trace ++ sendBitTrace (srTop s.sr) } := by
  rw [sendBitTrace, ← State.afterSendBit_trace]
  rfl

theorem afterReadBit_eq (s : State) :
    s.afterReadBit =
      { s with
        sclO := true, dtimer := 0, sr := shiftIn s.sr (s.peerBit 0), bitcnt := s.bitcnt + 1#4
        peer := s.peer.drop 1, draws := s.draws + 1, trace := s.trace ++ readBitTrace (s.peerBit 0) } := by
  rw [readBitTrace, ← State.afterReadBit_trace]
  rfl

/-- BITCNT counts one bit more (R35, R84). -/
theorem bitcnt_succ (c : BitVec 4) (k : Nat) : c + BitVec.ofNat 4 k + 1#4 = c + BitVec.ofNat 4 (k + 1) := by
  rw [BitVec.add_assoc, BitVec.ofNat_add]

/-- After `k + 1` bits of SEND_BYTE: each bit has driven what was the top of the shifter before its shift. -/
theorem afterSendBit_iterate_succ (k : Nat) (s : State) :
    State.afterSendBit^[k + 1] s =
      { s with
        sdaO := srTop (shiftOut^[k] s.sr), sclO := false, dtimer := 0
        sr := shiftOut^[k + 1] s.sr, bitcnt := s.bitcnt + BitVec.ofNat 4 (k + 1)
        trace := s.trace ++ ((List.range (k + 1)).map fun j => srTop (shiftOut^[j] s.sr)).flatMap sendBitTrace } := by
  induction k with
  | zero => simp [afterSendBit_eq]
  | succ k ih =>
    rw [Function.iterate_succ_apply', ih, afterSendBit_eq]
    simp [bitcnt_succ, List.range_succ, Function.iterate_succ_apply' shiftOut]

/-- Each bit of READ_BYTE uses up one draw. -/
theorem peerBit_afterReadBit_iterate (k j : Nat) (s : State) :
    (State.afterReadBit^[k] s).peerBit j = s.peerBit (k + j) := by
  induction k generalizing j with
  | zero => rw [Function.iterate_zero_apply, Nat.zero_add]
  | succ k ih => rw [Function.iterate_succ_apply', peerBit_afterReadBit, ih, Nat.add_right_comm, Nat.add_assoc]

/-- After `k + 1` bits of READ_BYTE: the draws have been shifted in, in their order. -/
theorem afterReadBit_iterate_succ (k : Nat) (s : State) :
    State.afterReadBit^[k + 1] s =
      { s with
        sclO := true, dtimer := 0
        sr := ((List.range (k + 1)).map s.peerBit).foldl shiftIn s.sr, bitcnt := s.bitcnt + BitVec.ofNat 4 (k + 1)
        peer := s.peer.drop (k + 1), draws := s.draws + (k + 1)
        trace := s.trace ++ ((List.range (k + 1)).map s.peerBit).flatMap readBitTrace } := by
  induction k with
  | zero => simp [afterReadBit_eq]
  | succ k ih =>
    have draw : (State.afterReadBit^[k + 1] s).peerBit 0 = s.peerBit (k + 1) := peerBit_afterReadBit_iterate (k + 1) 0 s
    rw [Function.iterate_succ_apply', afterReadBit_eq, draw, ih]
    simp [bitcnt_succ, List.range_succ, Nat.add_assoc]

/-- SEND_BYTE's list drives the bits of the byte, the highest first, and leaves the last on SDA and the shifter empty (R81). -/
theorem runOps_sendByteOps (b : Byte) (s : State) :
    runOps (sendByteOps b) s = .next
      { s with
        sdaOe := true, sdaO := b.getLsbD 0, sclO := false, dtimer := 0, sr := 0x00#8, bitcnt := 8#4
        trace := s.trace ++ sendByteTrace b } := by
  have loaded : (s.dirOut.loadShifter b).sr = b := rfl
  have bits := afterSendBit_iterate_succ 7 (s.dirOut.loadShifter b)
  rw [loaded, shiftOut_iterate_eight, srTop_shiftOut_iterate b (Nat.le_refl 7), ← bitsMsbFirst_eq_srTop] at bits
  rw [runOps_sendByte]
  refine congrArg Host.Outcome.next (bits.trans ?_)
  rw [State.loadShifter_trace, State.dirOut_trace, List.append_assoc]
  rfl

/-- READ_BYTE's list puts the next eight draws into the shifter and leaves SDA released and the clock low (R82). -/
theorem runOps_readByteOps (s : State) :
    runOps readByteOps s = .next
      { s with
        sdaOe := false, sclO := false, dtimer := 0
        sr := byteOfSamples ((List.range 8).map s.peerBit), bitcnt := 8#4, peer := s.peer.drop 8, draws := s.draws + 8
        trace := s.trace ++ readByteTrace ((List.range 8).map s.peerBit) } := by
  have draws : (s.dirIn.loadShifter 0x00#8).peerBit = s.peerBit := rfl
  have bits := afterReadBit_iterate_succ 7 (s.dirIn.loadShifter 0x00#8)
  rw [draws] at bits
  rw [runOps_readByte]
  refine (congrArg (fun u => Host.Outcome.next (u.setScl false)) bits).trans ?_
  rw [State.loadShifter_trace, State.dirIn_trace, List.append_assoc, State.setScl, State.log, List.append_assoc]
  rfl

/-- R81, R54, R60. Settles O15: acceptance, SEND_BYTE's list in order, and the end of the command. -/
theorem sendByteCompletes : Obligations.SendByteCompletes := fun b s h => by
  rw [exec_sendByte_runs b h, runOps_sendByteOps]
  rfl

/-- R82, R83, R60. Settles O17: acceptance, READ_BYTE's list in order, and the end of the command, which commits the shifter. -/
theorem readByteCompletes : Obligations.ReadByteCompletes := fun s h =>
  ⟨byteOfSamples ((List.range 8).map s.peerBit), fun _ => byteOfSamples_range_getLsbD s.peerBit, by
    rw [exec_readByte_runs h, runOps_readByteOps, List.append_assoc]
    rfl⟩

/-! ## The bus reading (R53) -/

/-- A bit of SEND_BYTE that begins with SCL low is one bit time: SDA moves unseen before the pulse and stands under the high SCL. -/
theorem readBus_sendBitTrace (n : Nat) (sda v : Bool) (es : List Event) :
    readBus n ⟨⟨true, sda, false⟩, none⟩ (sendBitTrace v ++ es) =
      [.pulse, .bit v] ++ readBus (n + 5) ⟨⟨true, v, false⟩, none⟩ es := by
  cases v <;> rfl

/-- Bits of SEND_BYTE from a low SCL are as many bit times. -/
theorem readBus_sendBits (n : Nat) (sda : Bool) (bits : List Bool) :
    readBus n ⟨⟨true, sda, false⟩, none⟩ (bits.flatMap sendBitTrace) = bits.flatMap fun v => [.pulse, .bit v] := by
  induction bits generalizing n sda with
  | nil => rfl
  | cons v bits ih => rw [List.flatMap_cons, List.flatMap_cons, readBus_sendBitTrace, ih]

/-- The first bit of SEND_BYTE on the idle bus raises no clock, so it is no bit time; lowering SDA is a start condition (S1). -/
theorem readBus_sendBitTrace_idle (n : Nat) (v : Bool) (es : List Event) :
    readBus n ⟨⟨true, true, true⟩, none⟩ (sendBitTrace v ++ es) =
      (if v then [] else [.startCond]) ++ readBus (n + 5) ⟨⟨true, v, false⟩, none⟩ es := by
  cases v <;> rfl

/-- With SCL low SEND_BYTE shows eight bit times; on the idle bus it loses the first (R81, S1). -/
theorem busReading_sendByteTrace (b : Byte) {l : Lines} (h : l.resting) :
    busReading l (sendByteTrace b) =
      if l.sclO then
        (if b.getLsbD 7 then [] else [.startCond]) ++
          [6, 5, 4, 3, 2, 1, 0].flatMap fun k => [.pulse, .bit (b.getLsbD k)]
      else [7, 6, 5, 4, 3, 2, 1, 0].flatMap fun k => [.pulse, .bit (b.getLsbD k)] := by
  obtain rfl | ⟨oe, sda, rfl⟩ := resting_cases h
  · exact (readBus_sendBitTrace_idle 1 (b.getLsbD 7) _).trans (congrArg _ (readBus_sendBits 6 _ _))
  · exact readBus_sendBits 1 sda (bitsMsbFirst b)

/-- From a released SDA and no clock pulse pending, a bit of READ_BYTE shows its pulse alone: its bit is still to come. -/
theorem readBus_readBitTrace_first (n : Nat) (sda scl v : Bool) (es : List Event) :
    readBus n ⟨⟨false, sda, scl⟩, none⟩ (readBitTrace v ++ es) =
      .pulse :: readBus (n + 5) ⟨⟨false, sda, true⟩, some v⟩ es := by
  cases scl <;> rfl

/-- The sample of a bit of READ_BYTE is seen when the clock falls for the next bit, and the last one at the end. -/
theorem readBus_readBits (n : Nat) (sda v : Bool) (bits : List Bool) :
    readBus n ⟨⟨false, sda, true⟩, some v⟩ (bits.flatMap readBitTrace ++ [.set .scl false]) =
      .bit v :: bits.flatMap fun w => [.pulse, .bit w] := by
  induction bits generalizing n v with
  | nil => rfl
  | cons w bits ih => exact congrArg ([.bit v, .pulse] ++ ·) (ih (n + 5) w)

/-- From resting lines `DirIn()` shows nothing: SDA is high already, or SCL is low. -/
theorem busReading_dirIn {l : Lines} (h : l.resting) (es : List Event) :
    busReading l (.dirIn :: es) = readBus 1 ⟨⟨false, l.sdaO, l.sclO⟩, none⟩ es := by
  obtain rfl | ⟨oe, sda, rfl⟩ := resting_cases h
  · rfl
  · rfl

theorem readByteTrace_cons (v : Bool) (bits : List Bool) :
    readByteTrace (v :: bits) = .dirIn :: (readBitTrace v ++ (bits.flatMap readBitTrace ++ [.set .scl false])) := rfl

/-- READ_BYTE shows one bit time for each sample (R82). -/
theorem busReading_readByteTrace (v : Bool) (bits : List Bool) {l : Lines} (h : l.resting) :
    busReading l (readByteTrace (v :: bits)) = (v :: bits).flatMap fun w => [.pulse, .bit w] := by
  rw [readByteTrace_cons, busReading_dirIn h, readBus_readBitTrace_first, readBus_readBits]
  rfl

theorem reset_not_mem_sendByteTrace (b : Byte) : .reset ∉ sendByteTrace b := by
  simp [sendByteTrace]

theorem reset_not_mem_readByteTrace (bits : List Bool) : .reset ∉ readByteTrace bits := by
  simp [readByteTrace]

/-- R81, R53, R54, R110. Settles O25: SEND_BYTE appends its trace, and the reading of that trace from resting lines. -/
theorem sendByteShowsTheByteMsbFirst : Obligations.SendByteShowsTheByteMsbFirst := fun b s h hrest =>
  ⟨_, sendByteCompletes b s h,
    (seenOnBus_of_append rfl (reset_not_mem_sendByteTrace b)).trans (busReading_sendByteTrace b hrest)⟩

/-- R82, R53, R110. Settles O26: READ_BYTE appends its trace, and the reading of that trace from resting lines. -/
theorem readByteShowsEightBitTimes : Obligations.ReadByteShowsEightBitTimes := fun s h hrest => by
  obtain ⟨byte, -, hexec⟩ := readByteCompletes s h
  refine ⟨_, hexec, ?_⟩
  rw [seenOnBus_of_append (List.append_assoc _ _ _) (reset_not_mem_readByteTrace ((List.range 8).map s.peerBit))]
  exact busReading_readByteTrace _ _ hrest

end Sys2Proof.Machine
end

section
/-!
PROOFS. WAIT_ACK and SEND_ACK alone: the state each leaves behind, and what each shows on the bus.
-/

namespace Sys2Proof.Machine

/-! ## SEND_ACK (R86) -/

/-- SEND_ACK's list drives N for one clock pulse and leaves SDA driven high under a low clock. -/
theorem runOps_sendAckOps (n : Bool) (s : State) :
    runOps (sendAckOps n) s = .next
      { s with sdaOe := true, sdaO := true, sclO := false, dtimer := 0, trace := s.trace ++ sendAckTrace n } := by
  simp [sendAckOps, sendAckTrace, doOp, State.dirOut, State.setSda, State.setScl, State.delay, State.log]

/-- R86, R60. Settles O16: acceptance, SEND_ACK's list in order, and the end of the command. -/
theorem sendAckCompletes : Obligations.SendAckCompletes := fun n s h => by
  rw [exec_sendAck_runs n h, runOps_sendAckOps]
  rfl

/-- SEND_ACK lowers SCL first, which from resting lines ends no bit time; SDA then moves only under a low SCL, and stands at N
while the clock is high. -/
theorem busReading_sendAckTrace (n : Bool) {l : Lines} (h : l.resting) :
    busReading l (sendAckTrace n) = [.pulse, .bit n] := by
  obtain rfl | ⟨oe, sda, rfl⟩ := resting_cases h
  · simp [busReading, sendAckTrace, readBus, readEvent, Lines.after, Lines.sdaM, sdaCondition]
  · simp [busReading, sendAckTrace, readBus, readEvent, Lines.after, Lines.sdaM, sdaCondition]

/-- R86, R53, R110. Settles O27: SEND_ACK appends its trace, and the reading of that trace from resting lines. -/
theorem sendAckShowsOneBitTime : Obligations.SendAckShowsOneBitTime := fun n s h hrest =>
  ⟨_, sendAckCompletes n s h,
    (seenOnBus_of_append (es := sendAckTrace n) rfl (by simp [sendAckTrace])).trans (busReading_sendAckTrace n hrest)⟩

/-! ## The sampling loop of WAIT_ACK (R85) -/

/-- After `k + 1` pairs of the loop: the draws are in TRACE in their order, and the branch is the one on the last of them. -/
theorem afterPair_iterate_succ (k : Nat) (s : State) :
    State.afterPair^[k + 1] s =
      { s with
        dtimer := 0, retry := s.retry + (k + 1), peer := s.peer.drop (k + 1), draws := s.draws + (k + 1)
        trace := s.trace ++ samplesTrace ((List.range (k + 1)).map s.peerBit)
        seq := .run .waitAck (branchIndex (s.retry + (k + 1)))
          (ackBranch Config.nRetry (s.retry + (k + 1)) (s.peerBit k)) } := by
  induction k with
  | zero => rfl
  | succ k ih =>
    have draw : (State.afterPair^[k + 1] s).peerBit 0 = s.peerBit (k + 1) := by
      rw [ih]
      simp [State.peerBit]
    rw [Function.iterate_succ_apply', State.afterPair, draw, ih]
    simp [samplesTrace, List.range_succ, Nat.add_assoc]

/-- A sample of 1 inside the budget goes on with the loop (R87). -/
theorem ackBranch_one {budget retry : Nat} (h : retry < budget) : ackBranch budget retry true = .main := by
  simp [ackBranch, h]

/-- A sample of 1 that uses up the budget leaves the loop for label TIMEOUT (R87). -/
theorem ackBranch_one_last (budget : Nat) : ackBranch budget budget true = .timedOut := by
  simp [ackBranch]

/-- Samples of 1 inside the budget keep the loop running, through one pair more. -/
theorem runSteps_pairs (k n : Nat) {s : State} (hs : s.seq = .run .waitAck (branchIndex s.retry) .main)
    (ho : s.sdaOe = false) (hk : s.retry + k < Config.nRetry) (ones : ∀ j, j < k → s.peerBit j = true) :
    runSteps (n + 2 * (k + 1)) s = runSteps n (State.afterPair^[k + 1] s) := by
  induction k generalizing n with
  | zero => exact runSteps_pair n hs ho
  | succ k ih =>
    have branch : ackBranch Config.nRetry (s.retry + (k + 1)) (s.peerBit k) = .main := by
      rw [ones k (Nat.lt_succ_self k), ackBranch_one hk]
    calc runSteps (n + 2 * (k + 1 + 1)) s
      _ = runSteps (n + 2) (State.afterPair^[k + 1] s) := by
        rw [← ih (n + 2) (by omega) fun j hj => ones j (by omega)]
        congr 1
        omega
      _ = runSteps n (State.afterPair^[k + 1 + 1] s) := by
        rw [Function.iterate_succ_apply' State.afterPair (k + 1)]
        refine runSteps_pair n ?_ ?_
        · rw [afterPair_iterate_succ, branch]
        · rw [afterPair_iterate_succ, ho]

/-- WAIT_ACK's state when the sample of draw `k` has been tested, from a state `s` that took the command. -/
def State.afterSamples (k : Nat) (s : State) : State :=
  { s with
    sdaOe := false, sdaO := true, sclO := true, illegal := false, busy := true, dtimer := 0
    retry := k + 1, peer := s.peer.drop (k + 1), draws := s.draws + (k + 1)
    trace := s.trace ++ waitAckEntryTrace ++ samplesTrace ((List.range (k + 1)).map s.peerBit)
    seq := .run .waitAck (branchIndex (k + 1)) (ackBranch Config.nRetry (k + 1) (s.peerBit k))
    accepted := s.accepted + 1 }

/-- The entry primitives and `k + 1` pairs of the loop together. -/
theorem afterPair_iterate_afterEntry (k : Nat) (s : State) :
    State.afterPair^[k + 1] (s.accept .waitAck).afterEntry = s.afterSamples k := by
  have draws : (s.accept .waitAck).afterEntry.peerBit = s.peerBit := rfl
  rw [afterPair_iterate_succ, draws]
  simp [State.afterSamples, waitAckEntryTrace]

/-- WAIT_ACK alone takes its entry and its samples up to the first one that may leave the loop. -/
theorem exec_waitAck_samples {s : State} (h : s.ready) {k : Nat} (hk : k < Config.nRetry)
    (ones : ∀ j, j < k → s.peerBit j = true) :
    exec .waitAck s = runSteps (2 * (Config.nRetry - (k + 1)) + 8) (s.afterSamples k) := by
  have steps : maxPrimitives .waitAck = 2 * (Config.nRetry - (k + 1)) + 8 + 2 * (k + 1) + 4 := by
    rw [maxPrimitives]
    omega
  rw [exec_eq_carryOut, carryOut_ready h, steps, runSteps_entry,
    runSteps_pairs k _ (s := (s.accept .waitAck).afterEntry) rfl rfl (by simpa using hk) ones, afterPair_iterate_afterEntry]

/-- Draws that all read 1, as a list. -/
theorem map_range_of_ones {f : Nat → Bool} {k : Nat} (ones : ∀ j, j < k → f j = true) :
    (List.range k).map f = List.replicate k true :=
  List.eq_replicate_iff.mpr ⟨by simp, by simpa using ones⟩

/-! ## The two ends of WAIT_ACK (R85) -/

/-- The events of WAIT_ACK from label ACKED. -/
def ackedTrace : List Event := [.set .scl false, .dirOut]

theorem setScl_dirOut_eq (s : State) :
    (s.setScl false).dirOut = { s with sdaOe := true, sclO := false, trace := s.trace ++ ackedTrace } := by
  simp [State.dirOut, State.setScl, State.log, ackedTrace]

theorem afterStop_eq (s : State) :
    s.afterStop = { s with sdaOe := true, sdaO := true, sclO := true, dtimer := 0, trace := s.trace ++ stopTrace } := by
  simp [State.afterStop, State.dirOut, State.setScl, State.setSda, State.delay, State.log, stopTrace]

/-- The end of WAIT_ACK commits NACK: 1 exactly from label TIMEOUT (R28). -/
theorem finish_waitAck_eq (path : Path) (s : State) :
    s.finish .waitAck path =
      { s with
        nack := decide (path = .timedOut), busy := false, seq := .idle, replies := s.replies ++ [.done s.owner] } := rfl

/-- R85 (label ACKED), R93, R60. Settles O18: the entry, the samples up to the first 0, which the test for 0 takes to label ACKED
whatever is left of the budget, and the end of the command. -/
theorem waitAckIsAckedAtTheFirstZero : Obligations.WaitAckIsAckedAtTheFirstZero := fun s k h hk ones zero => by
  have label : (s.afterSamples k).seq = .run .waitAck (branchIndex (k + 1)) .acked := by
    rw [State.afterSamples, zero]
    rfl
  have samples : (List.range (k + 1)).map s.peerBit = List.replicate k true ++ [false] := by
    rw [List.range_succ, List.map_append, map_range_of_ones ones, List.map_singleton, zero]
  rw [exec_waitAck_samples h hk ones, runSteps_acked _ label, finish_waitAck_eq, setScl_dirOut_eq, State.afterSamples,
    samples]
  rfl

/-- R85 (label TIMEOUT), R79, R60. Settles O19: the entry, the whole budget of samples, the last of which is draw
`N_RETRY - 1` and leaves the loop for label TIMEOUT, and `STOP_SEQ` to the end of the command. -/
theorem waitAckTimesOutAfterTheBudget : Obligations.WaitAckTimesOutAfterTheBudget := fun s h ones => by
  have last : Config.retriesAfterFirst < Config.nRetry := Nat.lt_succ_self _
  have label : (s.afterSamples Config.retriesAfterFirst).seq =
      .run .waitAck (branchIndex (Config.retriesAfterFirst + 1)) .timedOut := by
    rw [State.afterSamples, ones _ last]
    exact congrArg _ (ackBranch_one_last Config.nRetry)
  have samples : (List.range (Config.retriesAfterFirst + 1)).map s.peerBit = List.replicate Config.nRetry true :=
    map_range_of_ones ones
  rw [exec_waitAck_samples h last fun j hj => ones j (hj.trans last), runSteps_timedOut _ label, finish_waitAck_eq,
    afterStop_eq, State.afterSamples, samples]
  rfl

/-! ## The bus reading of WAIT_ACK (R53) -/

/-- The trace of WAIT_ACK whose samples are `bits` and then `nack`, the bit it reports (R85). -/
def waitAckTrace (bits : List Bool) (nack : Bool) : List Event :=
  waitAckEntryTrace ++ samplesTrace (bits ++ [nack]) ++ if nack then stopTrace else ackedTrace

theorem reset_not_mem_waitAckTrace (bits : List Bool) (nack : Bool) : .reset ∉ waitAckTrace bits nack := by
  cases nack <;> simp [waitAckTrace, waitAckEntryTrace, samplesTrace, stopTrace, ackedTrace]

/-- The entry raises the clock under a released SDA: a clock pulse where SCL was low, nothing on the idle bus (W7). -/
theorem busReading_waitAckEntryTrace {l : Lines} (h : l.resting) (es : List Event) :
    busReading l (waitAckEntryTrace ++ es) =
      (if l.sclO then [] else [.pulse]) ++
        readBus 4 ⟨⟨false, true, true⟩, if l.sclO then none else some true⟩ es := by
  obtain rfl | ⟨oe, sda, rfl⟩ := resting_cases h
  · simp [busReading, waitAckEntryTrace, readBus, readEvent, Lines.after, Lines.sdaM, sdaCondition]
  · simp [busReading, waitAckEntryTrace, readBus, readEvent, Lines.after, Lines.sdaM, sdaCondition]

/-- A sample under a released SDA shows nothing itself; it becomes the bit of a pending clock pulse. -/
theorem readEvent_get_released {l : Lines} (h : l.sdaOe = false) (n : Nat) (high : Option Bool) (v : Bool) :
    readEvent n ⟨l, high⟩ (.get v) = ([], ⟨l, high.map fun _ => v⟩) := by
  simp [readEvent, h]

/-- Of several samples the last one is the bit of the pending clock pulse. -/
theorem readBus_samplesTrace {l : Lines} (h : l.sdaOe = false) (bits : List Bool) (v : Bool) (es : List Event) (n : Nat)
    (high : Option Bool) :
    readBus n ⟨l, high⟩ (samplesTrace (bits ++ [v]) ++ es) =
      readBus (n + 2 * (bits.length + 1)) ⟨l, high.map fun _ => v⟩ es := by
  induction bits generalizing n high with
  | nil => simp [samplesTrace, readBus, readEvent_get_released h]
  | cons w bits ih =>
    have last : ((high.map fun _ => w).map fun _ => v) = high.map fun _ => v := Option.map_map ..
    have place : n + 2 * ((w :: bits).length + 1) = n + 2 + 2 * (bits.length + 1) := by
      rw [List.length_cons]
      omega
    rw [place, ← last, ← ih]
    simp [samplesTrace, readBus, readEvent_get_released h]

/-- Both labels lower the clock, which ends the bit time of a pending pulse. After that ACKED drives SDA at the same level, and
TIMEOUT shows the pulse and the stop condition of `STOP_SEQ`. -/
theorem readBus_waitAckEnd (n : Nat) (high : Option Bool) (nack : Bool) :
    readBus n ⟨⟨false, true, true⟩, high⟩ (if nack then stopTrace else ackedTrace) =
      high.toList.map .bit ++ if nack then [.pulse, .stopCond] else [] := by
  cases nack with
  | false => cases high <;> simp [ackedTrace, readBus, readEvent, Lines.after, Lines.sdaM, sdaCondition]
  | true => cases high <;> simp [stopTrace, readBus, readEvent, Lines.after, Lines.sdaM, sdaCondition]

/-- From a low clock WAIT_ACK shows a bit time with the last sample, from the idle bus none; then the stop when it times out. -/
theorem busReading_waitAckTrace (bits : List Bool) (nack : Bool) {l : Lines} (h : l.resting) :
    busReading l (waitAckTrace bits nack) =
      (if l.sclO then [] else [.pulse, .bit nack]) ++ if nack then [.pulse, .stopCond] else [] := by
  rw [waitAckTrace, List.append_assoc, busReading_waitAckEntryTrace h, readBus_samplesTrace rfl, readBus_waitAckEnd]
  cases l.sclO <;> rfl

/-- Of the first `n` bits one is the first 0, or all are 1. -/
theorem exists_first_zero_or_all_ones (f : Nat → Bool) (n : Nat) :
    (∃ k, k < n ∧ (∀ j, j < k → f j = true) ∧ f k = false) ∨ ∀ j, j < n → f j = true := by
  by_cases h : ∃ k, k < n ∧ f k = false
  · obtain ⟨hlt, hzero⟩ := Nat.find_spec h
    refine .inl ⟨Nat.find h, hlt, fun j hj => ?_, hzero⟩
    simpa [hj.trans hlt] using Nat.find_min h hj
  · exact .inr (by simpa using h)

/-- R85, R53, R110. Settles O28: Acked or TimedOut, WAIT_ACK appends its trace, whose last sample is NACK, and the reading of that
trace from resting lines. -/
theorem waitAckShowsAcknowledgeOrStop : Obligations.WaitAckShowsAcknowledgeOrStop := fun s h hrest => by
  obtain ⟨k, hk, ones, zero⟩ | ones := exists_first_zero_or_all_ones s.peerBit Config.nRetry
  · refine ⟨_, waitAckIsAckedAtTheFirstZero s k h hk ones zero, ?_⟩
    refine Eq.trans (seenOnBus_of_append ?_ (reset_not_mem_waitAckTrace (List.replicate k true) false))
      (busReading_waitAckTrace _ _ hrest)
    simp [waitAckTrace, waitAckEntryTrace, samplesTrace, ackedTrace]
  · refine ⟨_, waitAckTimesOutAfterTheBudget s h ones, ?_⟩
    refine Eq.trans
      (seenOnBus_of_append ?_ (reset_not_mem_waitAckTrace (List.replicate Config.retriesAfterFirst true) true))
      (busReading_waitAckTrace _ _ hrest)
    simp [waitAckTrace, waitAckEntryTrace, samplesTrace, stopTrace, Config.nRetry, List.replicate_succ']

end Sys2Proof.Machine
end

section
/-!
PROOFS. The RST input: a reset at any time and what it shows on the bus, and the controller while RST is asserted.
-/

namespace Sys2Proof.Machine

/-! ## While RST is asserted (R104, R107) -/

/-- Under RST no input waits for its time (log entry 2). -/
theorem due_of_rst {s : State} (hr : s.rst = true) (a : Arrival) : s.due a = true := by
  simp [State.due, hr]

/-- Under RST every input takes effect at once. -/
theorem step_of_rst {s : State} {a : Arrival} {rest : List Arrival} (hr : s.rst = true) (hg : s.agenda = a :: rest) :
    step s = ({ s with agenda := rest } : State).arrive a.input :=
  step_of_due hg (due_of_rst hr a)

/-- Under RST the controller has no move. -/
theorem step_stands_of_rst {s : State} (hr : s.rst = true) (hg : s.agenda = []) : step s = .next s := by
  rcases step_cases s with ⟨a, rest, hg', -, -⟩ | ⟨-, -, e⟩ | ⟨-, hr', -⟩ | ⟨-, hr', -⟩ | ⟨-, hr', -⟩
  · cases hg.symm.trans hg'
  · exact e
  all_goals cases hr.symm.trans hr'

/-- The port takes no access under RST, whatever its shape. -/
theorem hostAccess_of_rst {s : State} (hr : s.rst = true) (idx size : Nat) (u : State) :
    s.hostAccess idx size u = .refused .accessDuringReset := by
  simp [State.hostAccess, hr]

theorem exec_of_rst {s : State} (hr : s.rst = true) (i : Instr) : exec i s = .refused .accessDuringReset := by
  simp [exec_eq_carryOut, State.carryOut, hr]

/-- R107, R91. Settles O43: an input is due at once under RST, and the port and `exec` refuse. -/
theorem accessesDuringResetAreRefused : Obligations.AccessesDuringResetAreRefused :=
  fun _ _ _ idx size _ i _ hr =>
    ⟨fun hg => (step_of_rst hr hg).trans (hostAccess_of_rst hr idx size _),
      fun hg => (step_of_rst hr hg).trans (hostAccess_of_rst hr idx size _), exec_of_rst hr i⟩

/-- R104. Settles O47: only an input moves anything under RST, a level that stays is no rise, and a release writes RST alone. -/
theorem nothingMovesWhileRstIsAsserted : Obligations.NothingMovesWhileRstIsAsserted := by
  intro s hr
  refine ⟨step_stands_of_rst hr, fun t rest hg => ?_, fun t rest hg => step_of_rst hr hg⟩
  rw [step_of_rst hr hg]
  simp [State.arrive, State.setRst, hr]

/-! ## The rise of RST (R104, R106) -/

/-- A due rise of RST is a reset, whatever runs or is held. -/
theorem step_of_reset {s : State} {t : Option Nat} {rest : List Arrival} (hg : s.agenda = ⟨t, .rst true⟩ :: rest)
    (hd : s.due ⟨t, .rst true⟩ = true) (hr : s.rst = false) :
    step s = .next ({ s with agenda := rest } : State).takeReset := by
  rw [step_of_due hg hd]
  simp [State.arrive, State.setRst, hr]

theorem takeReset_atReset (s : State) : s.takeReset.atReset := by
  simp [State.atReset]

/-- After a reset the lines are the idle bus (R109). -/
theorem takeReset_lines (s : State) : s.takeReset.lines = ⟨true, true, true⟩ := rfl

/-- After a reset STATUS reads as after power-up: none of its bits stands for the outside (R39). -/
theorem takeReset_status (s : State) : s.takeReset.status = 0x0038#16 :=
  show State.reset.status = 0x0038#16 by decide

/-- R104, R106, R93. Settles O46: the step is the reset of the state without its input. -/
theorem resetAbortsWhateverRuns : Obligations.ResetAbortsWhateverRuns := fun _ _ _ hg hd hr =>
  ⟨_, step_of_reset hg hd hr, takeReset_atReset _, rfl, takeReset_status _, rfl, rfl, (List.append_assoc _ _ _).symm, rfl,
    rfl, rfl, rfl, rfl, rfl⟩

/-- A reset shows the pulse of a rising SCL, then a stop condition where SDA rises with SCL already high (R106, U3). -/
theorem seenOnBus_of_reset {s t : State} (h : t.trace = s.trace ++ [.reset]) :
    s.seenOnBus t =
      (if s.sclO then [] else [.pulse]) ++
        if !s.lines.sdaM && (s.sclO || Config.sclRisesFirst s.trace.length) then [.stopCond] else [] := by
  rw [State.seenOnBus, newEvents_of_append h]
  cases hscl : s.sclO <;> simp [readBus, readEvent, readReset, State.lines, hscl]

/-- R106, U3, X2. Settles O56 by the levels of SDA and SCL before the reset. -/
theorem aResetShowsAStopOrNoCondition : Obligations.AResetShowsAStopOrNoCondition := by
  intro s t rest hg hd hr
  have seen : s.seenOnBus ({ s with agenda := rest } : State).takeReset = _ := seenOnBus_of_reset rfl
  refine ⟨_, step_of_reset hg hd hr, takeReset_lines _, ?_⟩
  rw [seen]
  refine ⟨fun hsda => ?_, fun hsda hscl => ?_, fun hsda hscl => ?_⟩
  · simp [hsda]
  · simp [hsda, hscl]
  · simp [hsda, hscl]

end Sys2Proof.Machine
end

section
/-!
PROOFS. The tables of the six commands: their primitives and delay units, the lines they leave behind, and what those lines make of
the frame grammar.
-/

namespace Sys2Proof.Machine

/-! ## Primitives and delay units (R118) -/

/-- Blocks of events with `d` delay units each. -/
theorem delayUnits_flatMap {α : Type} {f : α → List Event} {d : Nat} (h : ∀ v, delayUnits (f v) = d) (l : List α) :
    delayUnits (l.flatMap f) = d * l.length := by
  induction l with
  | nil => rfl
  | cons v l ih => rw [List.flatMap_cons, delayUnits_append, h, ih, List.length_cons, Nat.mul_succ, Nat.add_comm]

/-- A trace of `n` primitives and `d` delay units. -/
def HasCounts (es : List Event) (n d : Nat) : Prop := es.length = n ∧ delayUnits es = d

/-- The `DirOut()`, then five primitives and two delay units for each bit (R81). -/
theorem sendByteTrace_counts (b : Byte) : HasCounts (sendByteTrace b) 41 16 := by
  constructor
  · simp [sendByteTrace, bitsMsbFirst]
  · simp [sendByteTrace, bitsMsbFirst, Event.delayUnits]

/-- Five primitives and two delay units for each bit, between `DirIn()` and the last `Set(SCL, 0)` (R82). -/
theorem readByteTrace_counts (bits : List Bool) : HasCounts (readByteTrace bits) (5 * bits.length + 2) (2 * bits.length) := by
  constructor
  · simp [readByteTrace, List.length_flatMap, Nat.mul_comm]
  · simp [readByteTrace, delayUnits_flatMap (d := 2), Event.delayUnits]

/-- Each pair of WAIT_ACK's loop is two primitives and one delay unit (R85). -/
theorem samplesTrace_counts (bits : List Bool) : HasCounts (samplesTrace bits) (2 * bits.length) bits.length := by
  constructor
  · simp [samplesTrace, List.length_flatMap, Nat.mul_comm]
  · simp [samplesTrace, delayUnits_flatMap (d := 1), Event.delayUnits]

/-- Traces one after the other add their counts. -/
theorem HasCounts.append {a b : List Event} {n m d e : Nat} (ha : HasCounts a n d) (hb : HasCounts b m e) :
    HasCounts (a ++ b) (n + m) (d + e) :=
  ⟨by rw [List.length_append, ha.1, hb.1], by rw [delayUnits_append, ha.2, hb.2]⟩

/-- A command that appends `es` to TRACE has the counts of `es`. -/
theorem exec_counts {i : Instr} {s t : State} {es : List Event} {n d : Nat} (he : exec i s = .next t)
    (ht : t.trace = s.trace ++ es) (hc : HasCounts es n d) :
    ∃ t, exec i s = .next t ∧ (s.newEvents t).length = n ∧ delayUnits (s.newEvents t) = d := by
  refine ⟨t, he, ?_⟩
  rw [newEvents_of_append ht]
  exact hc

/-- The entry, the samples, and `STOP_SEQ` or label ACKED (R85). -/
theorem waitAckTrace_counts {bits : List Bool} {k : Nat} (hk : bits.length = k) (nack : Bool) :
    HasCounts (waitAckTrace bits nack) (2 * (k + 1) + if nack then 12 else 6) (k + 1 + if nack then 4 else 1) := by
  have entry : HasCounts waitAckEntryTrace 4 1 := ⟨rfl, rfl⟩
  have samples := samplesTrace_counts (bits ++ [nack])
  have label : HasCounts (if nack then stopTrace else ackedTrace) (if nack then 8 else 2) (if nack then 3 else 0) := by
    cases nack <;> exact ⟨rfl, rfl⟩
  rw [List.length_append, List.length_singleton, hk] at samples
  rw [waitAckTrace]
  convert (entry.append samples).append label using 1
  · split <;> omega
  · split <;> omega

/-- R118. Settles O21: each completed command appends its trace, and the counts of that trace. -/
theorem primitiveAndDelayCounts : Obligations.PrimitiveAndDelayCounts := by
  intro s h
  refine ⟨exec_counts (es := startTrace) (startCompletes s h) rfl ⟨rfl, rfl⟩,
    exec_counts (es := stopTrace) (stopCompletes s h) rfl ⟨rfl, rfl⟩,
    fun b => exec_counts (sendByteCompletes b s h) rfl (sendByteTrace_counts b),
    fun k hk ones zero => ?_, fun ones => ?_,
    fun n => exec_counts (es := sendAckTrace n) (sendAckCompletes n s h) rfl ⟨rfl, rfl⟩, ?_⟩
  · refine exec_counts (waitAckIsAckedAtTheFirstZero s k h hk ones zero) ?_
      (waitAckTrace_counts (List.length_replicate (n := k) (a := true)) false)
    simp [waitAckTrace, waitAckEntryTrace, samplesTrace, ackedTrace]
  · refine exec_counts (waitAckTimesOutAfterTheBudget s h ones) ?_
      (waitAckTrace_counts (List.length_replicate (n := Config.retriesAfterFirst) (a := true)) true)
    simp [waitAckTrace, waitAckEntryTrace, samplesTrace, stopTrace, Config.nRetry, List.replicate_succ']
  · obtain ⟨byte, -, hexec⟩ := readByteCompletes s h
    exact exec_counts hexec (List.append_assoc _ _ _) (readByteTrace_counts ((List.range 8).map s.peerBit))

/-! ## The lines a command leaves behind (R109) -/

/-- The table of R109: the lines after command `i` from the state `s`, when NACK is then `nack`. -/
def State.linesLeft (i : Instr) (nack : Bool) (s : State) : Lines :=
  match i with
  | .start => ⟨true, false, false⟩
  | .stop => ⟨true, true, true⟩
  | .sendByte b => ⟨true, b.getLsbD 0, false⟩
  | .waitAck => ⟨true, true, nack⟩
  | .sendAck _ => ⟨true, true, false⟩
  | .readByte => ⟨false, s.sdaO, false⟩

/-- Every command alone ends on its row of the table. -/
theorem exec_leaves_lines {s : State} (h : s.ready) (i : Instr) :
    ∃ t, exec i s = .next t ∧ t.lines = s.linesLeft i t.nack := by
  cases i with
  | start => exact ⟨_, startCompletes s h, rfl⟩
  | stop => exact ⟨_, stopCompletes s h, rfl⟩
  | sendByte b => exact ⟨_, sendByteCompletes b s h, rfl⟩
  | waitAck =>
    obtain ⟨k, hk, ones, zero⟩ | ones := exists_first_zero_or_all_ones s.peerBit Config.nRetry
    · exact ⟨_, waitAckIsAckedAtTheFirstZero s k h hk ones zero, rfl⟩
    · exact ⟨_, waitAckTimesOutAfterTheBudget s h ones, rfl⟩
  | sendAck n => exact ⟨_, sendAckCompletes n s h, rfl⟩
  | readByte =>
    obtain ⟨_, -, hexec⟩ := readByteCompletes s h
    exact ⟨_, hexec, rfl⟩

/-- R109. Settles O22: the table's rows, command by command. -/
theorem linesAfterEachCommand : Obligations.LinesAfterEachCommand := fun _ h =>
  ⟨exec_leaves_lines h .start, exec_leaves_lines h .stop, fun b => exec_leaves_lines h (.sendByte b),
    exec_leaves_lines h .waitAck, fun n => exec_leaves_lines h (.sendAck n), exec_leaves_lines h .readByte⟩

/-! ## The frame grammar (R111) -/

/-- In each branch of the grammar the command's row of R109 leaves the clock high exactly where the frame has ended: after STOP, and
after a WAIT_ACK that timed out. -/
theorem linesLeft_sclO_of_frameNext {f f' : FrameState} {x : Issued} (h : frameNext f x = some f') (s : State) :
    (s.linesLeft x.command x.nack).sclO = decide (f' = .outside) := by
  revert h
  fun_cases frameNext f x
  all_goals rintro ⟨⟩
  all_goals simp [State.linesLeft, ite_eq_iff, *]

/-- The grammar has no SEND_BYTE outside a frame. -/
theorem inside_of_frameNext_sendByte {f f' : FrameState} {agent : Nat} {b : Byte} {nack : Bool}
    (h : frameNext f ⟨agent, .sendByte b, nack⟩ = some f') : f ≠ .outside := by
  rintro rfl
  cases h

/-- R110, R111, R112. Settles O29: SCL after a command is its row of R109, which is high where the frame has ended. -/
theorem frameGrammarKeepsTheClockLow : Obligations.FrameGrammarKeepsTheClockLow := by
  intro f f' i s h hfits
  refine ⟨?_, ?_⟩
  · obtain ⟨t, hexec, hlines⟩ := exec_leaves_lines h i
    exact ⟨t, hexec, fun hnext => (congrArg Lines.sclO hlines).trans (linesLeft_sclO_of_frameNext hnext s)⟩
  · rintro b nack rfl hnext
    exact hfits.trans (decide_eq_false (inside_of_frameNext_sendByte hnext))

end Sys2Proof.Machine
end
